-- ==== Sys2Proof/Word.lean ====
section
/-! DEFINITION. The widths of the values of the DP8390 core (spec/00_scope.md R9, R10): bytes, 16-bit words and
local addresses, and the 4-bit FIFO indices. All are unsigned and all arithmetic wraps at the width. -/

namespace Sys2Proof

/-- A byte: the unit of every register and of local RAM (R9, R80). -/
abbrev Byte := BitVec 8

/-- A 16-bit quantity: `CLDA`, `CRDA`, `RSAR`, `RBCR`, `TBCR`, a local address, a word on the data port (R80, R107). -/
abbrev Word := BitVec 16

/-- A 4-bit register offset or FIFO index (R44, R101). -/
abbrev Nibble := BitVec 4

end Sys2Proof
end

