-- ==== Sys2Proof/Config.lean ====
section
/-! DEFINITION. What an implementation fixes: the fixed sizes (spec/00_scope.md R6), the configuration parameters
(R7), and the free values: constants with no body, so that nothing can evaluate them or prove a value of them. -/

namespace Sys2Proof

/-- The five adapter variants (spec/00_scope.md R7, `VARIANT`). -/
inductive Variant where
  | ne1000
  | ne2000
  | wd8003
  | wd8013
  | el3c503
  deriving DecidableEq, Repr

/-- The answer of the network to a `NET_TX` call (spec/00_scope.md R8, R11). -/
inductive NetTxResult where
  | success
  | transientFailure
  | down
  deriving DecidableEq, Repr, Inhabited

/-- Which bytes of a 16-bit host access the adapter performs as accesses of their own, and in which order
(spec/91_not_in_source.md N9 leaves it open; log 35). -/
inductive Split where
  | lowFirst
  | highFirst
  | lowOnly
  | highOnly
  | neither
  deriving DecidableEq, Repr, Inhabited

/-- The configuration parameters, "fixed when an instance is built and never changed by any rule"
(spec/00_scope.md R7); `prom` is the adapter's PROM content (spec/46_oem_wrappers.md R367), filled from the
configuration and written by nothing. -/
structure Params where
  variant : Variant
  ioBase : Nat
  irqNum : Nat
  dmaCh : Nat
  shmemBase : Nat
  shmemSize : Nat
  mac : Vector Byte 6
  prom : Vector Byte 32
  undecodedRead : Byte
  deriving DecidableEq, Repr

namespace Config

/-- `MEM_SIZE`, local RAM bytes (R6). -/
def memSize : Nat := 16384

/-- `MAX_FRAME`, the largest frame the transmit engine accepts (R6). -/
def maxFrame : Nat := 1536

/-- `PAGE`, bytes per buffer page (R6). -/
def pageSize : Nat := 256

/-- Minimum accepted receive length (R6). -/
def minReceive : Nat := 8

/-- Receive pad length (R6). -/
def padLength : Nat := 60

/-- Tally counter cap (R6). -/
def tallyCap : Byte := 192

/-- The parameters of `State.reset`. DESIGN CHOICE (log 4, unsafe) but for `undecodedRead`, whose default 0xFF is
R7's: NE2000, the variant of the source's worked scenario (spec/46_oem_wrappers.md R369). -/
def defaultParams : Params where
  variant := .ne2000
  ioBase := 0x300
  irqNum := 3
  dmaCh := 1
  shmemBase := 0xD0000
  shmemSize := 16384
  mac := Vector.replicate 6 0
  prom := Vector.replicate 32 0
  undecodedRead := 0xFF

/-- Free value: the n-th answer the network gives where the environment has not said it (R11 "an input the model
draws freely"; spec/93_implementation_defined.md U19; log 6, safe). -/
opaque freeNetTxResult : Nat → NetTxResult

/-- Free value: the byte a read of the reset port returns (spec/43_remote_dma.md R263, "unspecified"; U4; log 7, safe). -/
opaque freeResetByte : Nat → Byte

/-- Free value: the PROM byte read on a 3C503 while both `GACR.ealo` and `GACR.eahi` are set
(spec/46_oem_wrappers.md R365 does not say which half is read; log 8, safe). -/
opaque freePromByte : Nat → Byte

/-- Free value: how the adapter splits a 16-bit host access that the spec does not give as one operation
(spec/46_oem_wrappers.md R362 "is not stated"; N9; log 35, safe). -/
opaque freeSplit : Nat → Split

end Config

end Sys2Proof
end

