-- ==== Sys2Proof/Machine/State.lean ====
section
/-! DEFINITION. The state of the machine as plain data: every element of spec/10_state.md R20, the inputs the rules read
(R48), the configuration (spec/00_scope.md R7), the adapter's three bits (spec/46_oem_wrappers.md), and the model's own
interface fields. `State.reset` is the table of R53. -/

namespace Sys2Proof.Machine

/-- Local RAM: the bytes that are not 0x00, by offset, in rising order. An unlisted offset reads 0x00, which is the
reset content (spec/10_state.md R46, "HR: all 0x00"; log 20). -/
abbrev Memory := List Host.Cell

/-- One access of the host on an abstract port (spec/00_scope.md R8), or on a host I/O port number that the adapter
routes to one of them (spec/46_oem_wrappers.md R361 to R365). `w` = write, `wide` = 16-bit. -/
inductive Access where
  /-- Port `REG`: offset `a`, data byte `d` of a write. -/
  | reg (w : Bool) (a : Nibble) (d : Byte)
  /-- Port `DATA`: data `v` of a write, in bits 7:0 when the access has 8 bits. -/
  | data (w wide : Bool) (v : Word)
  /-- Port `RESET`; `v` is ignored. -/
  | reset (w wide : Bool) (v : Word)
  /-- A host I/O port of the adapter. -/
  | io (w wide : Bool) (port : Nat) (v : Word)
  deriving DecidableEq, Repr

/-- What the network and the environment do between two host accesses (spec/30_encoding.md R100 kind 4; R8; R13). -/
inductive Event where
  /-- `NET_RX`: one whole frame, destination address first, without FCS (R109). -/
  | netRx (frame : List Byte)
  /-- `HARD_RESET` (spec/70_reset_and_hazards.md R410). -/
  | hardReset
  /-- `LINK_UP` takes a level. -/
  | linkUp (b : Bool)
  /-- `RUN` takes a level. -/
  | run (b : Bool)
  /-- The 3C503 Gate Array sets its three levels (spec/60_exceptions.md R392). -/
  | gateArray (nim tcm dtc : Bool)
  /-- The network fixes its answer to the next unanswered `NET_TX` (log 6). -/
  | netAnswer (r : NetTxResult)
  /-- The 3C503's `GACR.ealo`, `GACR.eahi` take values (spec/46_oem_wrappers.md R365; log 21). -/
  | promMap (ealo eahi : Bool)
  /-- The WD board's `CTRL1.MEME` takes a value (spec/46_oem_wrappers.md R363; log 21). -/
  | memEnable (b : Bool)
  /-- A host memory read of one byte at host address `addr` (WD shared-memory window, R363). -/
  | shmemRead (addr : Nat)
  /-- A host memory write of one byte at host address `addr` (R363). -/
  | shmemWrite (addr : Nat) (b : Byte)
  deriving DecidableEq, Repr

/-- One operation of any agent; all operations form one total order (spec/20_memory.md R90). -/
inductive Input where
  | access (a : Access)
  | event (e : Event)
  deriving DecidableEq, Repr

/-- What an access returned to the host. -/
inductive Reply where
  | byte (b : Byte)
  | word (w : Word)
  deriving DecidableEq, Repr

/-- A `LOOP_OUT(T, S)` event (spec/45_transmit.md R340): the bytes considered transmitted, and the serial stream. -/
structure LoopFrame where
  sent : List Byte
  stream : List Byte
  deriving DecidableEq, Repr

/-- A `setLevel(IRQ_NUM, active)` call (spec/60_exceptions.md R385). -/
structure LevelCall where
  irq : Nat
  active : Bool
  deriving DecidableEq, Repr

/-- The faults of a step: none. "The core raises no synchronous exception. No operation of this spec can fault, trap,
abort the host access" (spec/60_exceptions.md R380). -/
inductive Fault
  deriving DecidableEq, Repr

/-- Why a step has no meaning. -/
inductive Refusal where
  /-- Raised by an arm of `exec` whose instruction has no meaning yet; no arm is left in that case. Safe. -/
  | notModelled (mnemonic : String)
  /-- Raised by `DATA.RD8`, `DATA.RD16`, `DATA.WR8`, `DATA.WR16`: the access would transfer but its width is not
  `1 + DCR.WTS` bytes; "the model gives it no meaning" (spec/43_remote_dma.md R253; log 9). Safe. -/
  | dataPortWidth
  /-- Raised by the routing of an `io` access: a wrapper register whose layout the spec does not give
  (spec/46_oem_wrappers.md R363, R366; log 22). Safe. -/
  | wrapperRegister
  deriving DecidableEq, Repr

/-- The whole machine. -/
structure State where
  -- spec/10_state.md R22 to R29: command, interrupt, configuration, status
  cr : Byte
  isr : Byte
  imr : Byte
  dcr : Byte
  rcr : Byte
  rsr : Byte
  tcr : Byte
  tsr : Byte
  -- R31 to R37: local-DMA transmit and receive registers
  tpsr : Byte
  tbcr : Word
  pstart : Byte
  pstop : Byte
  bnry : Byte
  curr : Byte
  clda : Word
  -- R38 to R40: remote DMA
  rsar : Word
  rbcr : Word
  crda : Word
  -- R41 to R45: page 1, counters, FIFO, diagnostics
  par : Vector Byte 6
  mar : Vector Byte 8
  cntr0 : Byte
  cntr1 : Byte
  cntr2 : Byte
  fifo : Vector Byte 16
  fifoRp : Nibble
  fifoWp : Nibble
  rnpp : Byte
  lnpp : Byte
  acu : Byte
  acl : Byte
  -- R46, R47: local RAM, the level last driven on `IRQ`
  ram : Memory
  irqLevel : Bool
  -- R48: input levels
  linkUp : Bool
  running : Bool
  gaNim : Bool
  gaTcm : Bool
  gaDtc : Bool
  -- spec/46_oem_wrappers.md R363 to R366: adapter bits
  meme : Bool
  ealo : Bool
  eahi : Bool
  -- spec/00_scope.md R7: configuration
  cfg : Params
  -- the model's own: coming operations and answers, free values drawn, what was observed (logs 1, 6, 19)
  inputs : List Input
  netAnswers : List NetTxResult
  freeCount : Nat
  reply : Option Reply
  netTx : List (List Byte)
  loopOut : List LoopFrame
  irqCalls : List LevelCall
  deriving DecidableEq, Repr

/-- The machine right after hard reset (spec/10_state.md R53). `CR` = 0x21, `ISR` = 0x80, every other register, local
RAM and `IRQ_LEVEL` zero. DESIGN CHOICE, unsafe: the input levels (log 5), the adapter bits (log 21), the configuration
(log 4), the model's own fields (logs 1, 6, 19). -/
def State.reset : State where
  cr := 0x21
  isr := 0x80
  imr := 0
  dcr := 0
  rcr := 0
  rsr := 0
  tcr := 0
  tsr := 0
  tpsr := 0
  tbcr := 0
  pstart := 0
  pstop := 0
  bnry := 0
  curr := 0
  clda := 0
  rsar := 0
  rbcr := 0
  crda := 0
  par := Vector.replicate 6 0
  mar := Vector.replicate 8 0
  cntr0 := 0
  cntr1 := 0
  cntr2 := 0
  fifo := Vector.replicate 16 0
  fifoRp := 0
  fifoWp := 0
  rnpp := 0
  lnpp := 0
  acu := 0
  acl := 0
  ram := []
  irqLevel := false
  linkUp := true
  running := true
  gaNim := false
  gaTcm := false
  gaDtc := false
  meme := false
  ealo := false
  eahi := false
  cfg := Config.defaultParams
  inputs := []
  netAnswers := []
  freeCount := 0
  reply := none
  netTx := []
  loopOut := []
  irqCalls := []

end Sys2Proof.Machine
end

