-- ==== Sys2Proof/Machine/Operands.lean ====
section
/-! DEFINITION. Operand forms: halves of 16-bit registers and page addresses (spec/30_encoding.md R107), the fields of
`CR`, `DCR`, `RCR` and `TCR` (spec/10_state.md R22, R25, R26, R28), the hardwired-zero bits of the registers that are
written under a mask (spec/40_registers_page0.md R147 to R150), and the named updates of the state. -/

namespace Sys2Proof.Machine

/-- Bits 7:0 of a 16-bit register (R107). -/
def loByte (w : Word) : Byte := w.extractLsb' 0 8

/-- Bits 15:8 of a 16-bit register (R107). -/
def hiByte (w : Word) : Byte := w.extractLsb' 8 8

/-- The 16-bit value of two bytes; `wordOf p 0` is the local address of page `p`, the source's `(0, p)` (R9, R107). -/
def wordOf (hi lo : Byte) : Word := hi ++ lo

/-- Replaces bits 7:0 only (R107: "A write of one half replaces that half only"). -/
def setLoByte (w : Word) (b : Byte) : Word := wordOf (hiByte w) b

/-- Replaces bits 15:8 only. -/
def setHiByte (w : Word) (b : Byte) : Word := wordOf b (loByte w)

/-- `CR.STP`, bit 0 (R22). -/
def crStp (cr : Byte) : Bool := cr.getLsbD 0

/-- `CR.STA`, bit 1. -/
def crSta (cr : Byte) : Bool := cr.getLsbD 1

/-- `CR.TXP`, bit 2. -/
def crTxp (cr : Byte) : Bool := cr.getLsbD 2

/-- `CR.RD`, bits 5:3. -/
def crRd (cr : Byte) : BitVec 3 := cr.extractLsb' 3 3

/-- `CR.PS`, bits 7:6. -/
def crPs (cr : Byte) : BitVec 2 := cr.extractLsb' 6 2

/-- The bytes of `CR` from its five fields (R22). -/
def crOf (ps : BitVec 2) (rd : BitVec 3) (txp sta stp : Bool) : Byte :=
  ps ++ rd ++ BitVec.ofBool txp ++ BitVec.ofBool sta ++ BitVec.ofBool stp

/-- `CR.STP <- stp; CR.STA <- sta`, other fields unchanged. -/
def setStartStop (cr : Byte) (stp sta : Bool) : Byte := crOf (crPs cr) (crRd cr) (crTxp cr) sta stp

/-- `CR.TXP <- txp`. -/
def setTxp (cr : Byte) (txp : Bool) : Byte := crOf (crPs cr) (crRd cr) txp (crSta cr) (crStp cr)

/-- `CR.RD <- rd`. -/
def setRd (cr : Byte) (rd : BitVec 3) : Byte := crOf (crPs cr) rd (crTxp cr) (crSta cr) (crStp cr)

/-- `CR.PS <- ps`. -/
def setPs (cr : Byte) (ps : BitVec 2) : Byte := crOf ps (crRd cr) (crTxp cr) (crSta cr) (crStp cr)

/-- `DCR.WTS`, bit 0: 16-bit unit (R25). -/
def dcrWts (dcr : Byte) : Bool := dcr.getLsbD 0

/-- `DCR.BOS`, bit 1. -/
def dcrBos (dcr : Byte) : Bool := dcr.getLsbD 1

/-- `DCR.LAS`, bit 2, cleared by a soft reset; no rule reads it. -/
def clearLas (dcr : Byte) : Byte := dcr &&& 0xFB

/-- `RCR.AB`, bit 2 (R26). -/
def rcrAb (rcr : Byte) : Bool := rcr.getLsbD 2

/-- `RCR.AM`, bit 3. -/
def rcrAm (rcr : Byte) : Bool := rcr.getLsbD 3

/-- `RCR.PRO`, bit 4. -/
def rcrPro (rcr : Byte) : Bool := rcr.getLsbD 4

/-- `RCR.MON`, bit 5. -/
def rcrMon (rcr : Byte) : Bool := rcr.getLsbD 5

/-- `TCR.CRC`, bit 0: inhibit CRC (R28). -/
def tcrCrc (tcr : Byte) : Bool := tcr.getLsbD 0

/-- `TCR.LB`, bits 2:1: loopback mode. -/
def tcrLb (tcr : Byte) : BitVec 2 := tcr.extractLsb' 1 2

/-- `TCR.LB <- 0`. -/
def clearLb (tcr : Byte) : Byte := tcr &&& 0xF9

/-- The bits of `IMR` that exist (R150). -/
def imrMask : Byte := 0x7F

/-- The bits of `DCR` that exist (R149). -/
def dcrMask : Byte := 0x7F

/-- The bits of `RCR` that exist (R147). -/
def rcrMask : Byte := 0x3F

/-- The bits of `TCR` that exist (R148). -/
def tcrMask : Byte := 0x1F

/-- `NCR`: always 0x00 (spec/10_state.md R30, spec/40_registers_page0.md R125). -/
def ncrValue : Byte := 0x00

/-- What a read of a reserved offset of page 0 or page 2 returns (spec/40_registers_page0.md R130, R131,
spec/41_registers_page1_2_3.md R197 to R200; log 11). -/
def reservedRead : Byte := 0xFF

/-- `CR` after any reset: stopped, remote DMA aborted, page 0 (spec/70_reset_and_hazards.md R411). -/
def crReset : Byte := 0x21

/-- The byte at index `i` of the FIFO (spec/10_state.md R44). -/
def fifoGet (f : Vector Byte 16) (i : Nibble) : Byte := f[i.toNat]

/-- The FIFO with the byte at index `i` replaced. -/
def fifoSet (f : Vector Byte 16) (i : Nibble) (b : Byte) : Vector Byte 16 := f.set i.toNat b

/-- The state in which the last access returned `r`. -/
def State.withReply (s : State) (r : Reply) : State := { s with reply := some r }

/-- The state with another `CR`. -/
def State.withCr (s : State) (cr : Byte) : State := { s with cr := cr }

/-- The state with another `ISR`. -/
def State.withIsr (s : State) (isr : Byte) : State := { s with isr := isr }

/-- The state with another local RAM. -/
def State.withRam (s : State) (m : Memory) : State := { s with ram := m }

/-- The state in which the oldest coming operation is taken and no reply has been given yet. -/
def State.advance (s : State) : State := { s with inputs := s.inputs.tail, reply := none }

/-- An operation that completes and returns a byte to the host. -/
def replyByte (s : State) (b : Byte) : Host.Outcome State Fault Refusal := .next (s.withReply (.byte b))

/-- An operation that completes and returns a 16-bit word to the host. -/
def replyWord (s : State) (w : Word) : Host.Outcome State Fault Refusal := .next (s.withReply (.word w))

end Sys2Proof.Machine
end

