-- ==== Sys2Proof/Machine/Flags.lean ====
section
/-! DEFINITION. The status bits: the masks of `ISR`, `RSR`, `TSR` (spec/10_state.md R23, R27, R29), the computation of
`ISR.CNT` and of the interrupt level (spec/60_exceptions.md R385, R386, R392), and the loopback status table
(spec/45_transmit.md R339). -/

namespace Sys2Proof.Machine

/-- `ISR.PRX` (R23). -/
def isrPrx : Byte := 0x01
/-- `ISR.PTX`. -/
def isrPtx : Byte := 0x02
/-- `ISR.RXE`. -/
def isrRxe : Byte := 0x04
/-- `ISR.TXE`. -/
def isrTxe : Byte := 0x08
/-- `ISR.OVW`. -/
def isrOvw : Byte := 0x10
/-- `ISR.CNT`. -/
def isrCnt : Byte := 0x20
/-- `ISR.RDC`. -/
def isrRdc : Byte := 0x40
/-- `ISR.RST`. -/
def isrRst : Byte := 0x80

/-- `RSR.PRX` (R27). -/
def rsrPrx : Byte := 0x01
/-- `RSR.CRC`. -/
def rsrCrc : Byte := 0x02
/-- `RSR.FAE`. -/
def rsrFae : Byte := 0x04
/-- `RSR.FO`. -/
def rsrFo : Byte := 0x08
/-- `RSR.MPA`. -/
def rsrMpa : Byte := 0x10
/-- `RSR.PHY`. -/
def rsrPhy : Byte := 0x20

/-- `TSR.PTX` (R29). -/
def tsrPtx : Byte := 0x01
/-- `TSR.COL`. -/
def tsrCol : Byte := 0x04
/-- `TSR.CRS`. -/
def tsrCrs : Byte := 0x10
/-- `TSR.CDH`. -/
def tsrCdh : Byte := 0x40
/-- `TSR.OWC`. -/
def tsrOwc : Byte := 0x80

/-- Sets the bits of a mask. -/
def setBits (r m : Byte) : Byte := r ||| m

/-- Clears the bits of a mask. -/
def clearBits (r m : Byte) : Byte := r &&& ~~~m

/-- `ISR.CNT` of an aggregation pass: the AND of the three counters' top bits (spec/60_exceptions.md R386). -/
def cntBit (s : State) : Bool := s.cntr0.getLsbD 7 && s.cntr1.getLsbD 7 && s.cntr2.getLsbD 7

/-- `ISR` with `CNT` assigned, not or-ed, from the counters (R386). -/
def isrWithCnt (s : State) : Byte :=
  if cntBit s then setBits s.isr isrCnt else clearBits s.isr isrCnt

/-- The core's request: `(ISR and IMR) != 0` (R385). -/
def coreRequest (isr imr : Byte) : Bool := isr &&& imr != 0

/-- The level the line has for an `ISR` (R385): the core's request, and on the 3C503 the Gate Array term of R392. -/
def irqLevelFor (s : State) (isr : Byte) : Bool :=
  match s.cfg.variant with
  | .el3c503 => (coreRequest isr s.imr && !s.gaNim) || (s.gaDtc && !s.gaTcm)
  | .ne1000 | .ne2000 | .wd8003 | .wd8013 => coreRequest isr s.imr

/-- `LbStatus`: `CRS` and `CDH` by loopback mode (spec/45_transmit.md R339). -/
def lbStatus (lb : BitVec 2) : Byte :=
  match lb.toNat with
  | 1 => 0x50
  | 2 => 0x40
  | _ => 0x00

/-- A receive status with none of `CRC`, `FAE`, `FO`, `MPA` (spec/44_receive.md R302). -/
def rsrIntact (rsr : Byte) : Bool := rsr &&& 0x1E == 0

end Sys2Proof.Machine
end

