-- ==== Sys2Proof/Machine/Crc.lean ====
section
/-! DEFINITION. The frame check sequence (spec/20_memory.md R97) and the multicast hash (spec/44_receive.md R289). -/

namespace Sys2Proof.Machine

/-- One bit of the reflected CRC register (R97). -/
def crcBit (r : BitVec 32) : BitVec 32 :=
  if r.getLsbD 0 then (r >>> 1) ^^^ 0xEDB88320 else r >>> 1

/-- One byte: it is xored in, then eight bits are shifted (R97). -/
def crcByte (r : BitVec 32) (b : Byte) : BitVec 32 :=
  crcBit (crcBit (crcBit (crcBit (crcBit (crcBit (crcBit (crcBit (r ^^^ b.setWidth 32))))))))

/-- `RawCRC(B)`: the register before the final inversion (R97). -/
def rawCrc (bs : List Byte) : BitVec 32 := bs.foldl crcByte 0xFFFFFFFF

/-- `CRC32(B)` (R97). -/
def crc32 (bs : List Byte) : BitVec 32 := rawCrc bs ^^^ 0xFFFFFFFF

/-- The stored form of an FCS: least significant byte first (R97). -/
def fcsBytes (c : BitVec 32) : List Byte :=
  [c.extractLsb' 0 8, c.extractLsb' 8 8, c.extractLsb' 16 8, c.extractLsb' 24 8]

/-- The order of six bits reversed. -/
def bitrev6 (x : BitVec 6) : BitVec 6 :=
  BitVec.ofBool (x.getLsbD 0) ++ BitVec.ofBool (x.getLsbD 1) ++ BitVec.ofBool (x.getLsbD 2)
    ++ BitVec.ofBool (x.getLsbD 3) ++ BitVec.ofBool (x.getLsbD 4) ++ BitVec.ofBool (x.getLsbD 5)

/-- `McHash(d)`: the index of a destination address in the multicast filter (spec/44_receive.md R289). -/
def mcHash (d : List Byte) : BitVec 6 := bitrev6 ((crc32 d ^^^ 0xFFFFFFFF).extractLsb' 0 6)

end Sys2Proof.Machine
end

