-- ==== Sys2Proof/Machine/Ops.lean ====
section
/-! DEFINITION. The named operations that the meanings share: local RAM and the local-address decode
(spec/20_memory.md R84 to R89), the interrupt aggregation pass (spec/60_exceptions.md R385), which stands where taking
an exception stands on a processor (R380, R389: there is no other), its acknowledge, which stands where the return
stands (R390), and the two resets (spec/70_reset_and_hazards.md R410, R411). -/

namespace Sys2Proof.Machine

/-- The byte of local RAM at an offset; an unlisted offset reads 0x00 (spec/10_state.md R46). -/
def Memory.read : Memory → Nat → Byte
  | [], _ => 0
  | (a, x) :: rest, o => if a = o then x else Memory.read rest o

/-- One byte of local RAM replaced, the canonical form kept: addresses rising, no 0x00 listed. -/
def Memory.write : Memory → Nat → Byte → Memory
  | [], o, b => if b = 0 then [] else [(o, b)]
  | (a, x) :: rest, o, b =>
    if o < a then
      if b = 0 then (a, x) :: rest else (o, b) :: (a, x) :: rest
    else if o = a then
      if b = 0 then rest else (o, b) :: rest
    else (a, x) :: Memory.write rest o b

/-- The canonical form from a least offset on: offsets strictly rising and inside the 16 KiB, no byte 0x00. -/
def Memory.wfFrom : Nat → Memory → Bool
  | _, [] => true
  | lo, (a, x) :: rest => decide (lo ≤ a) && decide (a < Config.memSize) && (x != 0) && Memory.wfFrom (a + 1) rest

/-- The canonical form of local RAM. -/
def Memory.wf (m : Memory) : Bool := Memory.wfFrom 0 m

/-- `Decode(a)`: the local RAM offset of a local address, or nothing (spec/20_memory.md R83 to R87). -/
def decodeLocal (v : Variant) (a : Word) : Option Nat :=
  match v with
  | .ne1000 | .el3c503 =>
    let m := a.toNat % 0x4000
    if 0x2000 ≤ m then some (m - 0x2000) else none
  | .ne2000 =>
    let m := a.toNat % 0x8000
    if 0x4000 ≤ m then some (m - 0x4000) else none
  | .wd8003 | .wd8013 => some (a.toNat % 0x4000)

/-- `LocalRead(a)` (R88). -/
def localRead (s : State) (a : Word) : Byte :=
  match decodeLocal s.cfg.variant a with
  | some o => Memory.read s.ram o
  | none => s.cfg.undecodedRead

/-- `LocalWrite(a, b)` (R89): dropped where the address does not decode. -/
def localWrite (s : State) (a : Word) (b : Byte) : State :=
  match decodeLocal s.cfg.variant a with
  | some o => s.withRam (Memory.write s.ram o b)
  | none => s

/-- `MemRead(a, 2)`: the byte at `a` in bits 7:0, the byte at `a + 1` in bits 15:8 (spec/00_scope.md R11, R88). -/
def localRead16 (s : State) (a : Word) : Word := wordOf (localRead s (a + 1)) (localRead s a)

/-- `MemWrite(a, 2, v)`: each byte decoded on its own (R89). -/
def localWrite16 (s : State) (a : Word) (v : Word) : State :=
  localWrite (localWrite s a (loByte v)) (a + 1) (hiByte v)

/-- The bytes of a list written at ascending local addresses from `a` (R91: bytewise). -/
def localWriteList (s : State) (a : Word) : List Byte → State
  | [] => s
  | b :: bs => localWriteList (localWrite s a b) (a + 1) bs

/-- `UpdateIrq()` (spec/60_exceptions.md R385): `CNT` is assigned, the level computed, and `setLevel` called when the
level changes. -/
def updateIrq (s : State) : State :=
  let isr := isrWithCnt s
  let level := irqLevelFor s isr
  { s with
    isr := isr
    irqLevel := level
    irqCalls := if level = s.irqLevel then s.irqCalls else ⟨s.cfg.irqNum, level⟩ :: s.irqCalls }

/-- Causes recorded in `ISR`; a bit that is already 1 stays 1 (R382). -/
def raiseIsr (s : State) (causes : Byte) : State := s.withIsr (setBits s.isr causes)

/-- The acknowledge: write one to clear, bits 6:0, then the pass (spec/40_registers_page0.md R142, R390). -/
def acknowledgeIsr (s : State) (d : Byte) : State :=
  updateIrq (s.withIsr (clearBits s.isr (d &&& 0x7F)))

/-- `SoftReset()` (spec/70_reset_and_hazards.md R411): exactly the list; everything else keeps its value. -/
def softReset (s : State) : State :=
  updateIrq { s with
    cr := crReset
    isr := setBits s.isr isrRst
    imr := 0
    dcr := clearLas s.dcr
    tcr := clearLb s.tcr
    fifo := Vector.replicate 16 0
    fifoRp := 0
    fifoWp := 0 }

/-- `HARD_RESET` (R410): local RAM and every register of spec/10_state.md R20 zeroed, the line driven inactive
unconditionally (log 18), then the soft reset. `CTRL1.MEME` is 0 after it (spec/46_oem_wrappers.md R364). -/
def hardReset (s : State) : State :=
  softReset { s with
    cr := 0, isr := 0, imr := 0, dcr := 0, rcr := 0, rsr := 0, tcr := 0, tsr := 0
    tpsr := 0, tbcr := 0, pstart := 0, pstop := 0, bnry := 0, curr := 0, clda := 0
    rsar := 0, rbcr := 0, crda := 0
    par := Vector.replicate 6 0, mar := Vector.replicate 8 0
    cntr0 := 0, cntr1 := 0, cntr2 := 0
    fifo := Vector.replicate 16 0, fifoRp := 0, fifoWp := 0
    rnpp := 0, lnpp := 0, acu := 0, acl := 0
    ram := []
    irqLevel := false
    irqCalls := ⟨s.cfg.irqNum, false⟩ :: s.irqCalls
    meme := false }

end Sys2Proof.Machine
end

