-- ==== Sys2Proof/Machine/Receive.lean ====
section
/-! DEFINITION. The receive engine: the event `NET_RX` (spec/44_receive.md R280 to R309): the acceptance gate, the
address filter, monitor mode, the ring writer with overflow, the packet header. -/

namespace Sys2Proof.Machine

/-- Which predicate of the address filter held (R283). -/
inductive AddrMatch where
  | padr
  | bcast
  | mcast
  | prom
  | none
  deriving DecidableEq, Repr

/-- `RxReady`: the frame-independent part of the gate (R282). An output; no rule reads it. -/
def rxReady (s : State) : Bool := s.running && s.linkUp && crSta s.cr && !crStp s.cr

/-- `Accepting(F)` (R281). `ISR.RST`, `CR.TXP` and `TCR.LB` are not part of the gate. -/
def accepting (s : State) (frame : List Byte) : Bool :=
  rxReady s && decide (Config.minReceive ≤ frame.length)

/-- The multicast bit of a destination: bit 0 of its first byte (R284). -/
def multicastBit (d : List Byte) : Bool := (d.headD 0).getLsbD 0

/-- `is_padr`: the destination is the station address (R286). -/
def isPadr (s : State) (d : List Byte) : Bool := decide (d = s.par.toList)

/-- `is_bcast`: `RCR.AB` set and the destination all-ones (R287). -/
def isBcast (s : State) (d : List Byte) : Bool := rcrAb s.rcr && decide (d = List.replicate 6 0xFF)

/-- Filter bit number `k`: bit `k mod 8` of `MAR[k div 8]` (spec/10_state.md R42). -/
def filterBit (mar : Vector Byte 8) (k : BitVec 6) : Bool :=
  (mar.toList.getD (k.toNat / 8) 0).getLsbD (k.toNat % 8)

/-- `is_mcast`: `RCR.AM` set, the multicast bit set, and the hashed filter bit set (R288). -/
def isMcast (s : State) (d : List Byte) : Bool :=
  rcrAm s.rcr && multicastBit d && filterBit s.mar (mcHash d)

/-- `is_prom`: `RCR.PRO` set and the destination not multicast (R290). -/
def isProm (s : State) (d : List Byte) : Bool := rcrPro s.rcr && !multicastBit d

/-- `Match(d)`: the first predicate that holds, in the order station, broadcast, multicast, promiscuous (R283). -/
def matchAddr (s : State) (d : List Byte) : AddrMatch :=
  if isPadr s d then .padr
  else if isBcast s d then .bcast
  else if isMcast s d then .mcast
  else if isProm s d then .prom
  else .none

/-- `RSR.PHY` of an accepted frame: set for a broadcast or multicast match (R295). -/
def phyStatus (m : AddrMatch) : Byte :=
  match m with
  | .bcast | .mcast => rsrPhy
  | .padr | .prom | .none => 0

/-- The frame padded with 0x00 to at least 60 bytes (R297). -/
def padFrame (frame : List Byte) : List Byte :=
  frame ++ List.replicate (Config.padLength - frame.length) 0

/-- The chunks of the ring writer (R300), one for each unit of fuel; every chunk takes at least one byte. Answers
whether overflow was declared. -/
def ringLoop : Nat → State → List Byte → Bool → State × Bool
  | 0, s, _, _ => (s, false)
  | fuel + 1, s, src, last =>
    if src.isEmpty then (s, false) else
    let room := Config.pageSize - (loByte s.clda).toNat
    let chunk := src.take room
    let rest := src.drop room
    let adv := if last && rest.isEmpty then room else chunk.length
    let clda := s.clda + BitVec.ofNat 16 adv
    let s1 := localWriteList s s.clda chunk
    if loByte clda = 0 then
      let wrapped := if hiByte clda = s.pstop then wordOf s.pstart 0 else clda
      if hiByte wrapped = s.bnry then
        ({ s1 with clda := wrapped, isr := setBits s.isr (isrOvw ||| isrRst) }, true)
      else ringLoop fuel { s1 with clda := wrapped } rest last
    else ringLoop fuel { s1 with clda := clda } rest last

/-- `RingWrite(src, last)` from `CLDA` (R300). -/
def ringWrite (s : State) (src : List Byte) (last : Bool) : State × Bool := ringLoop src.length s src last

/-- The FCS placeholder (R299; log 16). -/
def fcsPlaceholder : List Byte := [0, 0, 0, 0]

/-- Step 4: the padded frame and the placeholder through the ring writer from `(4, CURR)` (R298, R299). Answers
whether the ring overflowed. -/
def storeFrame (s : State) (g : List Byte) : State × Bool :=
  let r := ringWrite { s with clda := wordOf s.curr 4 } g false
  if r.2 then r else ringWrite r.1 fcsPlaceholder true

/-- Step 3: one more missed packet in `CNTR2`, up to 192 (R296). -/
def countMissed (s : State) : State :=
  if s.cntr2 < Config.tallyCap then { s with cntr2 := s.cntr2 + 1 } else s

/-- The 4-byte packet header at page `start` (R304; format spec/30_encoding.md R108). -/
def writeHeader (s : State) (start rsr next : Byte) (count : Word) : State :=
  localWriteList s (wordOf start 0) [rsr, next, loByte count, hiByte count]

/-- Final status, `ISR`, header and `CURR`, `RSR`, aggregation (R302 to R305). `len` is the padded length. -/
def finishReceive (s : State) (start rsr : Byte) (len : Nat) : State :=
  if rsrIntact rsr then
    let final := setBits rsr rsrPrx
    let next := hiByte s.clda
    updateIrq { writeHeader (raiseIsr s isrPrx) start final next (BitVec.ofNat 16 (len + 8)) with
      curr := next, rsr := final }
  else updateIrq { raiseIsr s isrRxe with rsr := rsr }

/-- `NET_RX(F)` (R280): a dropped frame changes nothing (R281, R291). -/
def netRx (s : State) (frame : List Byte) : State :=
  if accepting s frame then
    let m := matchAddr s (frame.take 6)
    if m = .none then s
    else if rcrMon s.rcr then
      finishReceive (countMissed s) s.curr (setBits (phyStatus m) rsrMpa) (padFrame frame).length
    else
      let r := storeFrame s (padFrame frame)
      let rsr := if r.2 then setBits (phyStatus m) rsrMpa else phyStatus m
      finishReceive r.1 s.curr rsr (padFrame frame).length
  else s

end Sys2Proof.Machine
end

