-- ==== Sys2Proof/Machine/Transmit.lean ====
section
/-! DEFINITION. The transmit engine (spec/45_transmit.md R320 to R344): the network path and the loopback path. It
runs to completion inside the `CR` write that starts it (R320, spec/42_command_register.md R234). -/

namespace Sys2Proof.Machine

/-- The bytes at ascending local addresses from `a`, each decoded on its own (R327). -/
def localReadList (s : State) (a : Word) (n : Nat) : List Byte :=
  (List.range n).map fun i => localRead s (a + BitVec.ofNat 16 i)

/-- The call `NetTx(frame)`: the frame goes to the network, the answer is the environment's next one, or a free value
where it has said none (spec/00_scope.md R11; log 6). -/
def netTxCall (s : State) (frame : List Byte) : State × NetTxResult :=
  match s.netAnswers with
  | r :: rest => ({ s with netTx := frame :: s.netTx, netAnswers := rest }, r)
  | [] => ({ s with netTx := frame :: s.netTx, freeCount := s.freeCount + 1 }, Config.freeNetTxResult s.freeCount)

/-- The network path (R324 to R331). -/
def networkTransmit (s : State) : State :=
  if s.linkUp then
    let r := netTxCall s (localReadList s (wordOf s.tpsr 0) s.tbcr.toNat)
    match r.2 with
    | .success => raiseIsr { r.1 with tsr := tsrPtx } isrPtx
    | .transientFailure | .down => raiseIsr { r.1 with tsr := tsrCol } isrTxe
  else raiseIsr { s with tsr := tsrCol } isrTxe

/-- How many bytes a loopback transmits: half of `TBCR` in word mode (R333). -/
def loopbackLength (s : State) : Nat := if dcrWts s.dcr then s.tbcr.toNat / 2 else s.tbcr.toNat

/-- `T`, the bytes considered transmitted: every byte, or in word mode every other byte, selected by `DCR.BOS` (R334). -/
def loopbackBytes (s : State) : List Byte :=
  (List.range (loopbackLength s)).map fun i =>
    let offset := if dcrWts s.dcr then 2 * i + (dcrBos s.dcr).toNat else i
    localRead s (wordOf s.tpsr 0 + BitVec.ofNat 16 offset)

/-- `S`, the serial stream: the FCS is appended unless `TCR.CRC` inhibits it (R335, R337, R338). -/
def loopbackStream (s : State) (t : List Byte) : List Byte :=
  if tcrCrc s.tcr then t else t ++ fcsBytes (crc32 t)

/-- `TCR.CRC` = 0: the address filter forces `PRX` (R337). Fewer than 6 bytes match nothing. -/
def loopbackFiltered (s : State) (t : List Byte) : Byte :=
  if 6 ≤ t.length then
    match matchAddr s (t.take 6) with
    | .none => 0
    | .padr | .prom => rsrPrx
    | .bcast | .mcast => setBits rsrPrx rsrPhy
  else 0

/-- `TCR.CRC` = 1: the last four bytes are taken as the FCS of the bytes before them (R338; log 15). -/
def loopbackChecked (t : List Byte) : Byte :=
  if 4 ≤ t.length ∧ t.drop (t.length - 4) = fcsBytes (crc32 (t.take (t.length - 4))) then rsrPrx else rsrCrc

/-- `RSR` after a loopback (R336). -/
def loopbackStatus (s : State) (t : List Byte) : Byte :=
  if tcrCrc s.tcr then loopbackChecked t else loopbackFiltered s t

/-- One byte stored at `FIFO[FIFO_WP]`, which advances modulo 16 (R341). -/
def fifoPush (s : State) (b : Byte) : State :=
  { s with fifo := fifoSet s.fifo s.fifoWp b, fifoWp := s.fifoWp + 1 }

/-- Every byte of the stream, in order (R341). -/
def fifoLoad (s : State) (bs : List Byte) : State := bs.foldl fifoPush s

/-- The loopback path (R332): nothing reaches the network, the ring or local RAM (R342). -/
def loopbackTransmit (s : State) : State :=
  let t := loopbackBytes s
  let stream := loopbackStream s t
  fifoLoad (raiseIsr { s with
    rsr := loopbackStatus s t
    tsr := setBits tsrPtx (lbStatus (tcrLb s.tcr))
    loopOut := ⟨t, stream⟩ :: s.loopOut } isrPtx) stream

/-- The path a transmission takes: giant rejection, loopback, network, in this order (R320, R322, R323). -/
def transmitPath (s : State) : State :=
  if Config.maxFrame < s.tbcr.toNat then raiseIsr { s with tsr := tsrOwc } isrTxe
  else if tcrLb s.tcr ≠ 0 then loopbackTransmit s
  else networkTransmit s

/-- `TxEngine()`: the path, then `CR.TXP <- 0` and the aggregation pass (R320, R330). -/
def txEngine (s : State) : State :=
  let r := transmitPath s
  updateIrq (r.withCr (setTxp r.cr false))

end Sys2Proof.Machine
end

