-- ==== Sys2Proof/Machine/Command.lean ====
section
/-! DEFINITION. The command register write (spec/42_command_register.md R230 to R243): its four phases, `WR.CR`, and the
nine commands that the written byte carries. -/

namespace Sys2Proof.Machine

/-- `ISR.RST` on a write of `STP` and `STA`: set on the 0 to 1 edge of `STP`, cleared when the core leaves a state in
which it was stopped or not started (R233). -/
def rstAfterStartStop (isr cr : Byte) (stp sta : Bool) : Byte :=
  if stp && !crStp cr then setBits isr isrRst
  else if !stp && sta && (crStp cr || !crSta cr) then clearBits isr isrRst
  else isr

/-- Phase 1: both bits stored as written (R232), and `ISR.RST` (R233). -/
def startStop (s : State) (stp sta : Bool) : State :=
  { s with cr := setStartStop s.cr stp sta, isr := rstAfterStartStop s.isr s.cr stp sta }

/-- Phase 2: the transmit trigger, only on a 0 to 1 transition of `TXP` (R234). -/
def transmitTrigger (s : State) (txp : Bool) : State :=
  if txp && !crTxp s.cr then txEngine (s.withCr (setTxp s.cr true)) else s

/-- The set-up of Send Packet: `CRDA` and `RBCR` from the packet header at `BNRY` (R240). -/
def sendSetup (s : State) : State :=
  { s with
    crda := wordOf s.bnry 0
    rbcr := wordOf (localRead s (wordOf s.bnry 3)) (localRead s (wordOf s.bnry 2)) }

/-- Phase 3: 0 is coerced to Abort (R235); the command has an effect only where it differs from the stored one (R236);
Read, Write and Abort only store it (R237 to R239), Send Packet sets up the transfer first (R240). -/
def remoteCommand (s : State) (rd : BitVec 3) : State :=
  let cmd : BitVec 3 := if rd = 0 then 4 else rd
  if cmd = crRd s.cr then s
  else
    let s1 := if cmd = 3 then sendSetup s else s
    s1.withCr (setRd s1.cr cmd)

/-- Phase 4 (R241). -/
def selectPage (s : State) (ps : BitVec 2) : State := s.withCr (setPs s.cr ps)

/-- `WR.CR`: the four phases in order, one indivisible step (R230, R231). -/
def execWrCr (d : Byte) (s : State) : Host.Outcome State Fault Refusal :=
  .next (selectPage (remoteCommand (transmitTrigger (startStop s (crStp d) (crSta d)) (crTxp d)) (crRd d)) (crPs d))

/-- `CR.STP`: bit 0 stored, `STA` keeping its value (R232, R233; log 3). -/
def execCrStp (b : Bool) (s : State) : Host.Outcome State Fault Refusal := .next (startStop s b (crSta s.cr))

/-- `CR.STA`: bit 1 stored, `STP` keeping its value (R232, R233; log 3). -/
def execCrSta (b : Bool) (s : State) : Host.Outcome State Fault Refusal := .next (startStop s (crStp s.cr) b)

/-- `CR.TXP`: a written 1 (R234). -/
def execCrTxp (s : State) : Host.Outcome State Fault Refusal := .next (transmitTrigger s true)

/-- `CR.RD_INVALID`: a written 0 is an Abort (R235). -/
def execCrRdInvalid (s : State) : Host.Outcome State Fault Refusal := .next (remoteCommand s 0)

/-- `CR.RD_READ` (R238). -/
def execCrRdRead (s : State) : Host.Outcome State Fault Refusal := .next (remoteCommand s 1)

/-- `CR.RD_WRITE` (R239). -/
def execCrRdWrite (s : State) : Host.Outcome State Fault Refusal := .next (remoteCommand s 2)

/-- `CR.RD_SEND` (R240). -/
def execCrRdSend (s : State) : Host.Outcome State Fault Refusal := .next (remoteCommand s 3)

/-- `CR.RD_ABORT`: the stored field keeps the written value 4 to 7 (R237). -/
def execCrRdAbort (rd : BitVec 3) (s : State) : Host.Outcome State Fault Refusal := .next (remoteCommand s rd)

/-- `CR.PS` (R241). -/
def execCrPs (ps : BitVec 2) (s : State) : Host.Outcome State Fault Refusal := .next (selectPage s ps)

end Sys2Proof.Machine
end

