-- ==== Sys2Proof/Machine/Page0.lean ====
section
/-! DEFINITION. The read of `CR` and the register accesses of page 0 (spec/40_registers_page0.md R120 to R150). -/

namespace Sys2Proof.Machine

/-- `RD.CR` (R120). -/
def execRdCr (s : State) : Host.Outcome State Fault Refusal := replyByte s s.cr

/-- `P0R.CLDA0` (R121). -/
def execP0rClda0 (s : State) : Host.Outcome State Fault Refusal := replyByte s (loByte s.clda)

/-- `P0R.CLDA1` (R122). -/
def execP0rClda1 (s : State) : Host.Outcome State Fault Refusal := replyByte s (hiByte s.clda)

/-- `P0R.BNRY` (R123). -/
def execP0rBnry (s : State) : Host.Outcome State Fault Refusal := replyByte s s.bnry

/-- `P0R.TSR` (R124). -/
def execP0rTsr (s : State) : Host.Outcome State Fault Refusal := replyByte s s.tsr

/-- `P0R.NCR` (R125). -/
def execP0rNcr (s : State) : Host.Outcome State Fault Refusal := replyByte s ncrValue

/-- `P0R.FIFO`: the byte at `FIFO_RP`, which advances modulo 16 (R126). -/
def execP0rFifo (s : State) : Host.Outcome State Fault Refusal :=
  replyByte { s with fifoRp := s.fifoRp + 1 } (fifoGet s.fifo s.fifoRp)

/-- `P0R.ISR`: no side effect (R127). -/
def execP0rIsr (s : State) : Host.Outcome State Fault Refusal := replyByte s s.isr

/-- `P0R.CRDA0` (R128). -/
def execP0rCrda0 (s : State) : Host.Outcome State Fault Refusal := replyByte s (loByte s.crda)

/-- `P0R.CRDA1` (R129). -/
def execP0rCrda1 (s : State) : Host.Outcome State Fault Refusal := replyByte s (hiByte s.crda)

/-- `P0R.RSVD_A` (R130). -/
def execP0rRsvdA (s : State) : Host.Outcome State Fault Refusal := replyByte s reservedRead

/-- `P0R.RSVD_B` (R131). -/
def execP0rRsvdB (s : State) : Host.Outcome State Fault Refusal := replyByte s reservedRead

/-- `P0R.RSR` (R132). -/
def execP0rRsr (s : State) : Host.Outcome State Fault Refusal := replyByte s s.rsr

/-- `P0R.CNTR0`: read, clear, aggregation pass (R133). -/
def execP0rCntr0 (s : State) : Host.Outcome State Fault Refusal := replyByte (updateIrq { s with cntr0 := 0 }) s.cntr0

/-- `P0R.CNTR1` (R134). -/
def execP0rCntr1 (s : State) : Host.Outcome State Fault Refusal := replyByte (updateIrq { s with cntr1 := 0 }) s.cntr1

/-- `P0R.CNTR2` (R135). -/
def execP0rCntr2 (s : State) : Host.Outcome State Fault Refusal := replyByte (updateIrq { s with cntr2 := 0 }) s.cntr2

/-- `P0W.PSTART` (R136). -/
def execP0wPstart (d : Byte) (s : State) : Host.Outcome State Fault Refusal := .next { s with pstart := d }

/-- `P0W.PSTOP` (R137). -/
def execP0wPstop (d : Byte) (s : State) : Host.Outcome State Fault Refusal := .next { s with pstop := d }

/-- `P0W.BNRY` (R138). -/
def execP0wBnry (d : Byte) (s : State) : Host.Outcome State Fault Refusal := .next { s with bnry := d }

/-- `P0W.TPSR` (R139). -/
def execP0wTpsr (d : Byte) (s : State) : Host.Outcome State Fault Refusal := .next { s with tpsr := d }

/-- `P0W.TBCR0` (R140). -/
def execP0wTbcr0 (d : Byte) (s : State) : Host.Outcome State Fault Refusal := .next { s with tbcr := setLoByte s.tbcr d }

/-- `P0W.TBCR1` (R141). -/
def execP0wTbcr1 (d : Byte) (s : State) : Host.Outcome State Fault Refusal := .next { s with tbcr := setHiByte s.tbcr d }

/-- `P0W.ISR`: write one to clear (R142). -/
def execP0wIsr (d : Byte) (s : State) : Host.Outcome State Fault Refusal := .next (acknowledgeIsr s d)

/-- `P0W.RSAR0`: the same half of `CRDA` is written too (R143). -/
def execP0wRsar0 (d : Byte) (s : State) : Host.Outcome State Fault Refusal :=
  .next { s with rsar := setLoByte s.rsar d, crda := setLoByte s.crda d }

/-- `P0W.RSAR1` (R144). -/
def execP0wRsar1 (d : Byte) (s : State) : Host.Outcome State Fault Refusal :=
  .next { s with rsar := setHiByte s.rsar d, crda := setHiByte s.crda d }

/-- `P0W.RBCR0` (R145). -/
def execP0wRbcr0 (d : Byte) (s : State) : Host.Outcome State Fault Refusal := .next { s with rbcr := setLoByte s.rbcr d }

/-- `P0W.RBCR1` (R146). -/
def execP0wRbcr1 (d : Byte) (s : State) : Host.Outcome State Fault Refusal := .next { s with rbcr := setHiByte s.rbcr d }

/-- `P0W.RCR` (R147). -/
def execP0wRcr (d : Byte) (s : State) : Host.Outcome State Fault Refusal := .next { s with rcr := d &&& rcrMask }

/-- `P0W.TCR` (R148). -/
def execP0wTcr (d : Byte) (s : State) : Host.Outcome State Fault Refusal := .next { s with tcr := d &&& tcrMask }

/-- `P0W.DCR` (R149). -/
def execP0wDcr (d : Byte) (s : State) : Host.Outcome State Fault Refusal := .next { s with dcr := d &&& dcrMask }

/-- `P0W.IMR` (R150). -/
def execP0wImr (d : Byte) (s : State) : Host.Outcome State Fault Refusal :=
  .next (updateIrq { s with imr := d &&& imrMask })

end Sys2Proof.Machine
end

