-- ==== Sys2Proof/Machine/Page1.lean ====
section
/-! DEFINITION. The register accesses of page 1 (spec/41_registers_page1_2_3.md R160 to R189): plain storage. -/

namespace Sys2Proof.Machine

/-- `P1R.PAR0` (R160). -/
def execP1rPar0 (s : State) : Host.Outcome State Fault Refusal := replyByte s s.par[0]

/-- `P1R.PAR1` (R161). -/
def execP1rPar1 (s : State) : Host.Outcome State Fault Refusal := replyByte s s.par[1]

/-- `P1R.PAR2` (R162). -/
def execP1rPar2 (s : State) : Host.Outcome State Fault Refusal := replyByte s s.par[2]

/-- `P1R.PAR3` (R163). -/
def execP1rPar3 (s : State) : Host.Outcome State Fault Refusal := replyByte s s.par[3]

/-- `P1R.PAR4` (R164). -/
def execP1rPar4 (s : State) : Host.Outcome State Fault Refusal := replyByte s s.par[4]

/-- `P1R.PAR5` (R165). -/
def execP1rPar5 (s : State) : Host.Outcome State Fault Refusal := replyByte s s.par[5]

/-- `P1R.CURR` (R166). -/
def execP1rCurr (s : State) : Host.Outcome State Fault Refusal := replyByte s s.curr

/-- `P1R.MAR0` (R167). -/
def execP1rMar0 (s : State) : Host.Outcome State Fault Refusal := replyByte s s.mar[0]

/-- `P1R.MAR1` (R168). -/
def execP1rMar1 (s : State) : Host.Outcome State Fault Refusal := replyByte s s.mar[1]

/-- `P1R.MAR2` (R169). -/
def execP1rMar2 (s : State) : Host.Outcome State Fault Refusal := replyByte s s.mar[2]

/-- `P1R.MAR3` (R170). -/
def execP1rMar3 (s : State) : Host.Outcome State Fault Refusal := replyByte s s.mar[3]

/-- `P1R.MAR4` (R171). -/
def execP1rMar4 (s : State) : Host.Outcome State Fault Refusal := replyByte s s.mar[4]

/-- `P1R.MAR5` (R172). -/
def execP1rMar5 (s : State) : Host.Outcome State Fault Refusal := replyByte s s.mar[5]

/-- `P1R.MAR6` (R173). -/
def execP1rMar6 (s : State) : Host.Outcome State Fault Refusal := replyByte s s.mar[6]

/-- `P1R.MAR7` (R174). -/
def execP1rMar7 (s : State) : Host.Outcome State Fault Refusal := replyByte s s.mar[7]

/-- `P1W.PAR0` (R175). -/
def execP1wPar0 (d : Byte) (s : State) : Host.Outcome State Fault Refusal := .next { s with par := s.par.set 0 d }

/-- `P1W.PAR1` (R176). -/
def execP1wPar1 (d : Byte) (s : State) : Host.Outcome State Fault Refusal := .next { s with par := s.par.set 1 d }

/-- `P1W.PAR2` (R177). -/
def execP1wPar2 (d : Byte) (s : State) : Host.Outcome State Fault Refusal := .next { s with par := s.par.set 2 d }

/-- `P1W.PAR3` (R178). -/
def execP1wPar3 (d : Byte) (s : State) : Host.Outcome State Fault Refusal := .next { s with par := s.par.set 3 d }

/-- `P1W.PAR4` (R179). -/
def execP1wPar4 (d : Byte) (s : State) : Host.Outcome State Fault Refusal := .next { s with par := s.par.set 4 d }

/-- `P1W.PAR5` (R180). -/
def execP1wPar5 (d : Byte) (s : State) : Host.Outcome State Fault Refusal := .next { s with par := s.par.set 5 d }

/-- `P1W.CURR` (R181). -/
def execP1wCurr (d : Byte) (s : State) : Host.Outcome State Fault Refusal := .next { s with curr := d }

/-- `P1W.MAR0` (R182). -/
def execP1wMar0 (d : Byte) (s : State) : Host.Outcome State Fault Refusal := .next { s with mar := s.mar.set 0 d }

/-- `P1W.MAR1` (R183). -/
def execP1wMar1 (d : Byte) (s : State) : Host.Outcome State Fault Refusal := .next { s with mar := s.mar.set 1 d }

/-- `P1W.MAR2` (R184). -/
def execP1wMar2 (d : Byte) (s : State) : Host.Outcome State Fault Refusal := .next { s with mar := s.mar.set 2 d }

/-- `P1W.MAR3` (R185). -/
def execP1wMar3 (d : Byte) (s : State) : Host.Outcome State Fault Refusal := .next { s with mar := s.mar.set 3 d }

/-- `P1W.MAR4` (R186). -/
def execP1wMar4 (d : Byte) (s : State) : Host.Outcome State Fault Refusal := .next { s with mar := s.mar.set 4 d }

/-- `P1W.MAR5` (R187). -/
def execP1wMar5 (d : Byte) (s : State) : Host.Outcome State Fault Refusal := .next { s with mar := s.mar.set 5 d }

/-- `P1W.MAR6` (R188). -/
def execP1wMar6 (d : Byte) (s : State) : Host.Outcome State Fault Refusal := .next { s with mar := s.mar.set 6 d }

/-- `P1W.MAR7` (R189). -/
def execP1wMar7 (d : Byte) (s : State) : Host.Outcome State Fault Refusal := .next { s with mar := s.mar.set 7 d }

end Sys2Proof.Machine
end

