-- ==== Sys2Proof/Machine/Page2.lean ====
section
/-! DEFINITION. The register accesses of page 2 (spec/41_registers_page1_2_3.md R190 to R219): read-backs of the
page-0 configuration, the diagnostic storage, and reserved offsets. -/

namespace Sys2Proof.Machine

/-- `P2R.PSTART` (R190). -/
def execP2rPstart (s : State) : Host.Outcome State Fault Refusal := replyByte s s.pstart

/-- `P2R.PSTOP` (R191). -/
def execP2rPstop (s : State) : Host.Outcome State Fault Refusal := replyByte s s.pstop

/-- `P2R.RNPP` (R192). -/
def execP2rRnpp (s : State) : Host.Outcome State Fault Refusal := replyByte s s.rnpp

/-- `P2R.TPSR` (R193). -/
def execP2rTpsr (s : State) : Host.Outcome State Fault Refusal := replyByte s s.tpsr

/-- `P2R.LNPP` (R194). -/
def execP2rLnpp (s : State) : Host.Outcome State Fault Refusal := replyByte s s.lnpp

/-- `P2R.ACU` (R195). -/
def execP2rAcu (s : State) : Host.Outcome State Fault Refusal := replyByte s s.acu

/-- `P2R.ACL` (R196). -/
def execP2rAcl (s : State) : Host.Outcome State Fault Refusal := replyByte s s.acl

/-- `P2R.RSVD_8` (R197). -/
def execP2rRsvd8 (s : State) : Host.Outcome State Fault Refusal := replyByte s reservedRead

/-- `P2R.RSVD_9` (R198). -/
def execP2rRsvd9 (s : State) : Host.Outcome State Fault Refusal := replyByte s reservedRead

/-- `P2R.RSVD_A` (R199). -/
def execP2rRsvdA (s : State) : Host.Outcome State Fault Refusal := replyByte s reservedRead

/-- `P2R.RSVD_B` (R200). -/
def execP2rRsvdB (s : State) : Host.Outcome State Fault Refusal := replyByte s reservedRead

/-- `P2R.RCR` (R201). -/
def execP2rRcr (s : State) : Host.Outcome State Fault Refusal := replyByte s s.rcr

/-- `P2R.TCR` (R202). -/
def execP2rTcr (s : State) : Host.Outcome State Fault Refusal := replyByte s s.tcr

/-- `P2R.DCR` (R203). -/
def execP2rDcr (s : State) : Host.Outcome State Fault Refusal := replyByte s s.dcr

/-- `P2R.IMR` (R204). -/
def execP2rImr (s : State) : Host.Outcome State Fault Refusal := replyByte s s.imr

/-- `P2W.CLDA0` (R205). -/
def execP2wClda0 (d : Byte) (s : State) : Host.Outcome State Fault Refusal := .next { s with clda := setLoByte s.clda d }

/-- `P2W.CLDA1` (R206). -/
def execP2wClda1 (d : Byte) (s : State) : Host.Outcome State Fault Refusal := .next { s with clda := setHiByte s.clda d }

/-- `P2W.RNPP` (R207). -/
def execP2wRnpp (d : Byte) (s : State) : Host.Outcome State Fault Refusal := .next { s with rnpp := d }

/-- `P2W.LNPP` (R209). -/
def execP2wLnpp (d : Byte) (s : State) : Host.Outcome State Fault Refusal := .next { s with lnpp := d }

/-- `P2W.ACU` (R210). -/
def execP2wAcu (d : Byte) (s : State) : Host.Outcome State Fault Refusal := .next { s with acu := d }

/-- `P2W.ACL` (R211). -/
def execP2wAcl (d : Byte) (s : State) : Host.Outcome State Fault Refusal := .next { s with acl := d }

/-- `P2W.RSVD_4`: the byte is discarded (R208). -/
def execP2wRsvd4 (_d : Byte) (s : State) : Host.Outcome State Fault Refusal := .next s

/-- `P2W.RSVD_8`: the byte is discarded (R212). -/
def execP2wRsvd8 (_d : Byte) (s : State) : Host.Outcome State Fault Refusal := .next s

/-- `P2W.RSVD_9`: the byte is discarded (R213). -/
def execP2wRsvd9 (_d : Byte) (s : State) : Host.Outcome State Fault Refusal := .next s

/-- `P2W.RSVD_A`: the byte is discarded (R214). -/
def execP2wRsvdA (_d : Byte) (s : State) : Host.Outcome State Fault Refusal := .next s

/-- `P2W.RSVD_B`: the byte is discarded (R215). -/
def execP2wRsvdB (_d : Byte) (s : State) : Host.Outcome State Fault Refusal := .next s

/-- `P2W.RSVD_C`: the byte is discarded (R216). -/
def execP2wRsvdC (_d : Byte) (s : State) : Host.Outcome State Fault Refusal := .next s

/-- `P2W.RSVD_D`: the byte is discarded (R217). -/
def execP2wRsvdD (_d : Byte) (s : State) : Host.Outcome State Fault Refusal := .next s

/-- `P2W.RSVD_E`: the byte is discarded (R218). -/
def execP2wRsvdE (_d : Byte) (s : State) : Host.Outcome State Fault Refusal := .next s

/-- `P2W.RSVD_F`: the byte is discarded (R219). -/
def execP2wRsvdF (_d : Byte) (s : State) : Host.Outcome State Fault Refusal := .next s

end Sys2Proof.Machine
end

