-- ==== Sys2Proof/Machine/Page3.lean ====
section
/-! DEFINITION. The register accesses of page 3 (spec/41_registers_page1_2_3.md R220, R221): unimplemented; reads
return 0x00, writes are ignored. -/

namespace Sys2Proof.Machine

/-- What a read of page 3 returns (R220). -/
def page3Read : Byte := 0x00

/-- `P3R.01` (R220). -/
def execP3r01 (s : State) : Host.Outcome State Fault Refusal := replyByte s page3Read

/-- `P3R.02` (R220). -/
def execP3r02 (s : State) : Host.Outcome State Fault Refusal := replyByte s page3Read

/-- `P3R.03` (R220). -/
def execP3r03 (s : State) : Host.Outcome State Fault Refusal := replyByte s page3Read

/-- `P3R.04` (R220). -/
def execP3r04 (s : State) : Host.Outcome State Fault Refusal := replyByte s page3Read

/-- `P3R.05` (R220). -/
def execP3r05 (s : State) : Host.Outcome State Fault Refusal := replyByte s page3Read

/-- `P3R.06` (R220). -/
def execP3r06 (s : State) : Host.Outcome State Fault Refusal := replyByte s page3Read

/-- `P3R.07` (R220). -/
def execP3r07 (s : State) : Host.Outcome State Fault Refusal := replyByte s page3Read

/-- `P3R.08` (R220). -/
def execP3r08 (s : State) : Host.Outcome State Fault Refusal := replyByte s page3Read

/-- `P3R.09` (R220). -/
def execP3r09 (s : State) : Host.Outcome State Fault Refusal := replyByte s page3Read

/-- `P3R.0A` (R220). -/
def execP3r0A (s : State) : Host.Outcome State Fault Refusal := replyByte s page3Read

/-- `P3R.0B` (R220). -/
def execP3r0B (s : State) : Host.Outcome State Fault Refusal := replyByte s page3Read

/-- `P3R.0C` (R220). -/
def execP3r0C (s : State) : Host.Outcome State Fault Refusal := replyByte s page3Read

/-- `P3R.0D` (R220). -/
def execP3r0D (s : State) : Host.Outcome State Fault Refusal := replyByte s page3Read

/-- `P3R.0E` (R220). -/
def execP3r0E (s : State) : Host.Outcome State Fault Refusal := replyByte s page3Read

/-- `P3R.0F` (R220). -/
def execP3r0F (s : State) : Host.Outcome State Fault Refusal := replyByte s page3Read

/-- `P3W.01`: ignored (R221). -/
def execP3w01 (_d : Byte) (s : State) : Host.Outcome State Fault Refusal := .next s

/-- `P3W.02`: ignored (R221). -/
def execP3w02 (_d : Byte) (s : State) : Host.Outcome State Fault Refusal := .next s

/-- `P3W.03`: ignored (R221). -/
def execP3w03 (_d : Byte) (s : State) : Host.Outcome State Fault Refusal := .next s

/-- `P3W.04`: ignored (R221). -/
def execP3w04 (_d : Byte) (s : State) : Host.Outcome State Fault Refusal := .next s

/-- `P3W.05`: ignored (R221). -/
def execP3w05 (_d : Byte) (s : State) : Host.Outcome State Fault Refusal := .next s

/-- `P3W.06`: ignored (R221). -/
def execP3w06 (_d : Byte) (s : State) : Host.Outcome State Fault Refusal := .next s

/-- `P3W.07`: ignored (R221). -/
def execP3w07 (_d : Byte) (s : State) : Host.Outcome State Fault Refusal := .next s

/-- `P3W.08`: ignored (R221). -/
def execP3w08 (_d : Byte) (s : State) : Host.Outcome State Fault Refusal := .next s

/-- `P3W.09`: ignored (R221). -/
def execP3w09 (_d : Byte) (s : State) : Host.Outcome State Fault Refusal := .next s

/-- `P3W.0A`: ignored (R221). -/
def execP3w0A (_d : Byte) (s : State) : Host.Outcome State Fault Refusal := .next s

/-- `P3W.0B`: ignored (R221). -/
def execP3w0B (_d : Byte) (s : State) : Host.Outcome State Fault Refusal := .next s

/-- `P3W.0C`: ignored (R221). -/
def execP3w0C (_d : Byte) (s : State) : Host.Outcome State Fault Refusal := .next s

/-- `P3W.0D`: ignored (R221). -/
def execP3w0D (_d : Byte) (s : State) : Host.Outcome State Fault Refusal := .next s

/-- `P3W.0E`: ignored (R221). -/
def execP3w0E (_d : Byte) (s : State) : Host.Outcome State Fault Refusal := .next s

/-- `P3W.0F`: ignored (R221). -/
def execP3w0F (_d : Byte) (s : State) : Host.Outcome State Fault Refusal := .next s

end Sys2Proof.Machine
end

