-- ==== Sys2Proof/Machine/Ports.lean ====
section
/-! DEFINITION. The remote-DMA controller, the data port and the reset port (spec/43_remote_dma.md R250 to R269). -/

namespace Sys2Proof.Machine

/-- The unit: bytes moved by one data-port access, `1 + DCR.WTS`, sampled at each access (R251). -/
def dmaUnit (s : State) : Nat := if dcrWts s.dcr then 2 else 1

/-- A data-port read transfers in Read and Send Packet mode (R252). -/
def readEnabled (s : State) : Bool := crRd s.cr == 1 || crRd s.cr == 3

/-- A data-port write transfers in Write mode (R252). -/
def writeEnabled (s : State) : Bool := crRd s.cr == 2

/-- `CRDA` after one unit: advanced, and replaced by `PSTART*256` when its page is `PSTOP`, but not in a degenerate
ring (R256, R257(a)). -/
def crdaNext (s : State) : Word :=
  let a := s.crda + BitVec.ofNat 16 (dmaUnit s)
  if hiByte a = s.pstop ∧ s.pstart ≠ s.pstop then wordOf s.pstart 0 else a

/-- `RBCR` after one unit: the first decrement unguarded, the second in word mode only if the count is not zero
(R256, R257(b)). -/
def rbcrNext (s : State) : Word :=
  let n := s.rbcr - 1
  if dcrWts s.dcr ∧ n ≠ 0 then n - 1 else n

/-- `DmaStep()` (R256), with completion when the count reaches zero (R258). -/
def dmaStep (s : State) : State :=
  let s1 := { s with crda := crdaNext s, rbcr := rbcrNext s }
  if s1.rbcr = 0 then updateIrq (raiseIsr (s1.withCr (setRd s1.cr 0)) isrRdc) else s1

/-- `DATA.RD8` (R254; width R253; no transfer R259). -/
def execDataRd8 (s : State) : Host.Outcome State Fault Refusal :=
  if readEnabled s then
    if dmaUnit s = 1 then replyByte (dmaStep s) (localRead s s.crda) else .refused .dataPortWidth
  else replyByte s 0xFF

/-- `DATA.RD16` (R254; width R253; no transfer R259). -/
def execDataRd16 (s : State) : Host.Outcome State Fault Refusal :=
  if readEnabled s then
    if dmaUnit s = 2 then replyWord (dmaStep s) (localRead16 s s.crda) else .refused .dataPortWidth
  else replyWord s 0xFFFF

/-- `DATA.WR8` (R255; width R253; no transfer R259). -/
def execDataWr8 (v : Byte) (s : State) : Host.Outcome State Fault Refusal :=
  if writeEnabled s then
    if dmaUnit s = 1 then .next (dmaStep (localWrite s s.crda v)) else .refused .dataPortWidth
  else .next s

/-- `DATA.WR16` (R255; width R253; no transfer R259). -/
def execDataWr16 (v : Word) (s : State) : Host.Outcome State Fault Refusal :=
  if writeEnabled s then
    if dmaUnit s = 2 then .next (dmaStep (localWrite16 s s.crda v)) else .refused .dataPortWidth
  else .next s

/-- `RESET.RD`: a soft reset, then a byte whose value is unspecified (R263; U4; log 7). -/
def execResetRd (s : State) : Host.Outcome State Fault Refusal :=
  let s1 := softReset s
  replyByte { s1 with freeCount := s1.freeCount + 1 } (Config.freeResetByte s1.freeCount)

/-- `RESET.WR`: a soft reset; the data are ignored (R262). -/
def execResetWr (_v : Word) (s : State) : Host.Outcome State Fault Refusal := .next (softReset s)

end Sys2Proof.Machine
end

