-- ==== Sys2Proof/Syntax.lean ====
section
/-! DEFINITION. The instructions: one constructor for each of the 137 rows of spec/opcode_table.json, in its order. An
instruction of this hardware is one bus operation or one command carried by a `CR` write (spec/30_encoding.md R100).
Every docstring names the row and the rule of spec/ that gives the operation. -/

namespace Sys2Proof

/-- The operations of the DP8390 core. Operands: `d` the data byte of a register write, `v` the data of a port write,
`rd` the three bits of an Abort command, `b` and `ps` the field of a `CR` value. -/
inductive Instr where
  /-- `RD.CR` (R120). -/
  | rdCr
  /-- `WR.CR` (R230). -/
  | wrCr (d : Byte)
  /-- `P0R.CLDA0` (R121). -/
  | p0rClda0
  /-- `P0R.CLDA1` (R122). -/
  | p0rClda1
  /-- `P0R.BNRY` (R123). -/
  | p0rBnry
  /-- `P0R.TSR` (R124). -/
  | p0rTsr
  /-- `P0R.NCR` (R125). -/
  | p0rNcr
  /-- `P0R.FIFO` (R126). -/
  | p0rFifo
  /-- `P0R.ISR` (R127). -/
  | p0rIsr
  /-- `P0R.CRDA0` (R128). -/
  | p0rCrda0
  /-- `P0R.CRDA1` (R129). -/
  | p0rCrda1
  /-- `P0R.RSVD_A` (R130). -/
  | p0rRsvdA
  /-- `P0R.RSVD_B` (R131). -/
  | p0rRsvdB
  /-- `P0R.RSR` (R132). -/
  | p0rRsr
  /-- `P0R.CNTR0` (R133). -/
  | p0rCntr0
  /-- `P0R.CNTR1` (R134). -/
  | p0rCntr1
  /-- `P0R.CNTR2` (R135). -/
  | p0rCntr2
  /-- `P0W.PSTART` (R136). -/
  | p0wPstart (d : Byte)
  /-- `P0W.PSTOP` (R137). -/
  | p0wPstop (d : Byte)
  /-- `P0W.BNRY` (R138). -/
  | p0wBnry (d : Byte)
  /-- `P0W.TPSR` (R139). -/
  | p0wTpsr (d : Byte)
  /-- `P0W.TBCR0` (R140). -/
  | p0wTbcr0 (d : Byte)
  /-- `P0W.TBCR1` (R141). -/
  | p0wTbcr1 (d : Byte)
  /-- `P0W.ISR` (R142). -/
  | p0wIsr (d : Byte)
  /-- `P0W.RSAR0` (R143). -/
  | p0wRsar0 (d : Byte)
  /-- `P0W.RSAR1` (R144). -/
  | p0wRsar1 (d : Byte)
  /-- `P0W.RBCR0` (R145). -/
  | p0wRbcr0 (d : Byte)
  /-- `P0W.RBCR1` (R146). -/
  | p0wRbcr1 (d : Byte)
  /-- `P0W.RCR` (R147). -/
  | p0wRcr (d : Byte)
  /-- `P0W.TCR` (R148). -/
  | p0wTcr (d : Byte)
  /-- `P0W.DCR` (R149). -/
  | p0wDcr (d : Byte)
  /-- `P0W.IMR` (R150). -/
  | p0wImr (d : Byte)
  /-- `P1R.PAR0` (R160). -/
  | p1rPar0
  /-- `P1R.PAR1` (R161). -/
  | p1rPar1
  /-- `P1R.PAR2` (R162). -/
  | p1rPar2
  /-- `P1R.PAR3` (R163). -/
  | p1rPar3
  /-- `P1R.PAR4` (R164). -/
  | p1rPar4
  /-- `P1R.PAR5` (R165). -/
  | p1rPar5
  /-- `P1R.CURR` (R166). -/
  | p1rCurr
  /-- `P1R.MAR0` (R167). -/
  | p1rMar0
  /-- `P1R.MAR1` (R168). -/
  | p1rMar1
  /-- `P1R.MAR2` (R169). -/
  | p1rMar2
  /-- `P1R.MAR3` (R170). -/
  | p1rMar3
  /-- `P1R.MAR4` (R171). -/
  | p1rMar4
  /-- `P1R.MAR5` (R172). -/
  | p1rMar5
  /-- `P1R.MAR6` (R173). -/
  | p1rMar6
  /-- `P1R.MAR7` (R174). -/
  | p1rMar7
  /-- `P1W.PAR0` (R175). -/
  | p1wPar0 (d : Byte)
  /-- `P1W.PAR1` (R176). -/
  | p1wPar1 (d : Byte)
  /-- `P1W.PAR2` (R177). -/
  | p1wPar2 (d : Byte)
  /-- `P1W.PAR3` (R178). -/
  | p1wPar3 (d : Byte)
  /-- `P1W.PAR4` (R179). -/
  | p1wPar4 (d : Byte)
  /-- `P1W.PAR5` (R180). -/
  | p1wPar5 (d : Byte)
  /-- `P1W.CURR` (R181). -/
  | p1wCurr (d : Byte)
  /-- `P1W.MAR0` (R182). -/
  | p1wMar0 (d : Byte)
  /-- `P1W.MAR1` (R183). -/
  | p1wMar1 (d : Byte)
  /-- `P1W.MAR2` (R184). -/
  | p1wMar2 (d : Byte)
  /-- `P1W.MAR3` (R185). -/
  | p1wMar3 (d : Byte)
  /-- `P1W.MAR4` (R186). -/
  | p1wMar4 (d : Byte)
  /-- `P1W.MAR5` (R187). -/
  | p1wMar5 (d : Byte)
  /-- `P1W.MAR6` (R188). -/
  | p1wMar6 (d : Byte)
  /-- `P1W.MAR7` (R189). -/
  | p1wMar7 (d : Byte)
  /-- `P2R.PSTART` (R190). -/
  | p2rPstart
  /-- `P2R.PSTOP` (R191). -/
  | p2rPstop
  /-- `P2R.RNPP` (R192). -/
  | p2rRnpp
  /-- `P2R.TPSR` (R193). -/
  | p2rTpsr
  /-- `P2R.LNPP` (R194). -/
  | p2rLnpp
  /-- `P2R.ACU` (R195). -/
  | p2rAcu
  /-- `P2R.ACL` (R196). -/
  | p2rAcl
  /-- `P2R.RSVD_8` (R197). -/
  | p2rRsvd8
  /-- `P2R.RSVD_9` (R198). -/
  | p2rRsvd9
  /-- `P2R.RSVD_A` (R199). -/
  | p2rRsvdA
  /-- `P2R.RSVD_B` (R200). -/
  | p2rRsvdB
  /-- `P2R.RCR` (R201). -/
  | p2rRcr
  /-- `P2R.TCR` (R202). -/
  | p2rTcr
  /-- `P2R.DCR` (R203). -/
  | p2rDcr
  /-- `P2R.IMR` (R204). -/
  | p2rImr
  /-- `P2W.CLDA0` (R205). -/
  | p2wClda0 (d : Byte)
  /-- `P2W.CLDA1` (R206). -/
  | p2wClda1 (d : Byte)
  /-- `P2W.RNPP` (R207). -/
  | p2wRnpp (d : Byte)
  /-- `P2W.RSVD_4` (R208). -/
  | p2wRsvd4 (d : Byte)
  /-- `P2W.LNPP` (R209). -/
  | p2wLnpp (d : Byte)
  /-- `P2W.ACU` (R210). -/
  | p2wAcu (d : Byte)
  /-- `P2W.ACL` (R211). -/
  | p2wAcl (d : Byte)
  /-- `P2W.RSVD_8` (R212). -/
  | p2wRsvd8 (d : Byte)
  /-- `P2W.RSVD_9` (R213). -/
  | p2wRsvd9 (d : Byte)
  /-- `P2W.RSVD_A` (R214). -/
  | p2wRsvdA (d : Byte)
  /-- `P2W.RSVD_B` (R215). -/
  | p2wRsvdB (d : Byte)
  /-- `P2W.RSVD_C` (R216). -/
  | p2wRsvdC (d : Byte)
  /-- `P2W.RSVD_D` (R217). -/
  | p2wRsvdD (d : Byte)
  /-- `P2W.RSVD_E` (R218). -/
  | p2wRsvdE (d : Byte)
  /-- `P2W.RSVD_F` (R219). -/
  | p2wRsvdF (d : Byte)
  /-- `P3R.01` (R220). -/
  | p3r01
  /-- `P3R.02` (R220). -/
  | p3r02
  /-- `P3R.03` (R220). -/
  | p3r03
  /-- `P3R.04` (R220). -/
  | p3r04
  /-- `P3R.05` (R220). -/
  | p3r05
  /-- `P3R.06` (R220). -/
  | p3r06
  /-- `P3R.07` (R220). -/
  | p3r07
  /-- `P3R.08` (R220). -/
  | p3r08
  /-- `P3R.09` (R220). -/
  | p3r09
  /-- `P3R.0A` (R220). -/
  | p3r0A
  /-- `P3R.0B` (R220). -/
  | p3r0B
  /-- `P3R.0C` (R220). -/
  | p3r0C
  /-- `P3R.0D` (R220). -/
  | p3r0D
  /-- `P3R.0E` (R220). -/
  | p3r0E
  /-- `P3R.0F` (R220). -/
  | p3r0F
  /-- `P3W.01` (R221). -/
  | p3w01 (d : Byte)
  /-- `P3W.02` (R221). -/
  | p3w02 (d : Byte)
  /-- `P3W.03` (R221). -/
  | p3w03 (d : Byte)
  /-- `P3W.04` (R221). -/
  | p3w04 (d : Byte)
  /-- `P3W.05` (R221). -/
  | p3w05 (d : Byte)
  /-- `P3W.06` (R221). -/
  | p3w06 (d : Byte)
  /-- `P3W.07` (R221). -/
  | p3w07 (d : Byte)
  /-- `P3W.08` (R221). -/
  | p3w08 (d : Byte)
  /-- `P3W.09` (R221). -/
  | p3w09 (d : Byte)
  /-- `P3W.0A` (R221). -/
  | p3w0A (d : Byte)
  /-- `P3W.0B` (R221). -/
  | p3w0B (d : Byte)
  /-- `P3W.0C` (R221). -/
  | p3w0C (d : Byte)
  /-- `P3W.0D` (R221). -/
  | p3w0D (d : Byte)
  /-- `P3W.0E` (R221). -/
  | p3w0E (d : Byte)
  /-- `P3W.0F` (R221). -/
  | p3w0F (d : Byte)
  /-- `CR.RD_INVALID` (R235). -/
  | crRdInvalid
  /-- `CR.RD_READ` (R238). -/
  | crRdRead
  /-- `CR.RD_WRITE` (R239). -/
  | crRdWrite
  /-- `CR.RD_SEND` (R240). -/
  | crRdSend
  /-- `CR.RD_ABORT` (R237). -/
  | crRdAbort (rd : BitVec 3)
  /-- `CR.TXP` (R234). -/
  | crTxp
  /-- `CR.STA` (R232). -/
  | crSta (b : Bool)
  /-- `CR.STP` (R232). -/
  | crStp (b : Bool)
  /-- `CR.PS` (R241). -/
  | crPs (ps : BitVec 2)
  /-- `DATA.RD8` (R254). -/
  | dataRd8
  /-- `DATA.RD16` (R254). -/
  | dataRd16
  /-- `DATA.WR8` (R255). -/
  | dataWr8 (v : Byte)
  /-- `DATA.WR16` (R255). -/
  | dataWr16 (v : Word)
  /-- `RESET.RD` (R263). -/
  | resetRd
  /-- `RESET.WR` (R262). -/
  | resetWr (v : Word)
  deriving DecidableEq, Repr

end Sys2Proof
end

