-- ==== Sys2Proof/Machine/Dispatch.lean ====
section
/-! DEFINITION. One arm for each instruction: one direct call of its meaning. -/

namespace Sys2Proof.Machine

def exec (i : Instr) (s : State) : Host.Outcome State Fault Refusal :=
  match i with
  | .rdCr => Sys2Proof.Machine.execRdCr s
  | .wrCr d => Sys2Proof.Machine.execWrCr d s
  | .p0rClda0 => Sys2Proof.Machine.execP0rClda0 s
  | .p0rClda1 => Sys2Proof.Machine.execP0rClda1 s
  | .p0rBnry => Sys2Proof.Machine.execP0rBnry s
  | .p0rTsr => Sys2Proof.Machine.execP0rTsr s
  | .p0rNcr => Sys2Proof.Machine.execP0rNcr s
  | .p0rFifo => Sys2Proof.Machine.execP0rFifo s
  | .p0rIsr => Sys2Proof.Machine.execP0rIsr s
  | .p0rCrda0 => Sys2Proof.Machine.execP0rCrda0 s
  | .p0rCrda1 => Sys2Proof.Machine.execP0rCrda1 s
  | .p0rRsvdA => Sys2Proof.Machine.execP0rRsvdA s
  | .p0rRsvdB => Sys2Proof.Machine.execP0rRsvdB s
  | .p0rRsr => Sys2Proof.Machine.execP0rRsr s
  | .p0rCntr0 => Sys2Proof.Machine.execP0rCntr0 s
  | .p0rCntr1 => Sys2Proof.Machine.execP0rCntr1 s
  | .p0rCntr2 => Sys2Proof.Machine.execP0rCntr2 s
  | .p0wPstart d => Sys2Proof.Machine.execP0wPstart d s
  | .p0wPstop d => Sys2Proof.Machine.execP0wPstop d s
  | .p0wBnry d => Sys2Proof.Machine.execP0wBnry d s
  | .p0wTpsr d => Sys2Proof.Machine.execP0wTpsr d s
  | .p0wTbcr0 d => Sys2Proof.Machine.execP0wTbcr0 d s
  | .p0wTbcr1 d => Sys2Proof.Machine.execP0wTbcr1 d s
  | .p0wIsr d => Sys2Proof.Machine.execP0wIsr d s
  | .p0wRsar0 d => Sys2Proof.Machine.execP0wRsar0 d s
  | .p0wRsar1 d => Sys2Proof.Machine.execP0wRsar1 d s
  | .p0wRbcr0 d => Sys2Proof.Machine.execP0wRbcr0 d s
  | .p0wRbcr1 d => Sys2Proof.Machine.execP0wRbcr1 d s
  | .p0wRcr d => Sys2Proof.Machine.execP0wRcr d s
  | .p0wTcr d => Sys2Proof.Machine.execP0wTcr d s
  | .p0wDcr d => Sys2Proof.Machine.execP0wDcr d s
  | .p0wImr d => Sys2Proof.Machine.execP0wImr d s
  | .p1rPar0 => Sys2Proof.Machine.execP1rPar0 s
  | .p1rPar1 => Sys2Proof.Machine.execP1rPar1 s
  | .p1rPar2 => Sys2Proof.Machine.execP1rPar2 s
  | .p1rPar3 => Sys2Proof.Machine.execP1rPar3 s
  | .p1rPar4 => Sys2Proof.Machine.execP1rPar4 s
  | .p1rPar5 => Sys2Proof.Machine.execP1rPar5 s
  | .p1rCurr => Sys2Proof.Machine.execP1rCurr s
  | .p1rMar0 => Sys2Proof.Machine.execP1rMar0 s
  | .p1rMar1 => Sys2Proof.Machine.execP1rMar1 s
  | .p1rMar2 => Sys2Proof.Machine.execP1rMar2 s
  | .p1rMar3 => Sys2Proof.Machine.execP1rMar3 s
  | .p1rMar4 => Sys2Proof.Machine.execP1rMar4 s
  | .p1rMar5 => Sys2Proof.Machine.execP1rMar5 s
  | .p1rMar6 => Sys2Proof.Machine.execP1rMar6 s
  | .p1rMar7 => Sys2Proof.Machine.execP1rMar7 s
  | .p1wPar0 d => Sys2Proof.Machine.execP1wPar0 d s
  | .p1wPar1 d => Sys2Proof.Machine.execP1wPar1 d s
  | .p1wPar2 d => Sys2Proof.Machine.execP1wPar2 d s
  | .p1wPar3 d => Sys2Proof.Machine.execP1wPar3 d s
  | .p1wPar4 d => Sys2Proof.Machine.execP1wPar4 d s
  | .p1wPar5 d => Sys2Proof.Machine.execP1wPar5 d s
  | .p1wCurr d => Sys2Proof.Machine.execP1wCurr d s
  | .p1wMar0 d => Sys2Proof.Machine.execP1wMar0 d s
  | .p1wMar1 d => Sys2Proof.Machine.execP1wMar1 d s
  | .p1wMar2 d => Sys2Proof.Machine.execP1wMar2 d s
  | .p1wMar3 d => Sys2Proof.Machine.execP1wMar3 d s
  | .p1wMar4 d => Sys2Proof.Machine.execP1wMar4 d s
  | .p1wMar5 d => Sys2Proof.Machine.execP1wMar5 d s
  | .p1wMar6 d => Sys2Proof.Machine.execP1wMar6 d s
  | .p1wMar7 d => Sys2Proof.Machine.execP1wMar7 d s
  | .p2rPstart => Sys2Proof.Machine.execP2rPstart s
  | .p2rPstop => Sys2Proof.Machine.execP2rPstop s
  | .p2rRnpp => Sys2Proof.Machine.execP2rRnpp s
  | .p2rTpsr => Sys2Proof.Machine.execP2rTpsr s
  | .p2rLnpp => Sys2Proof.Machine.execP2rLnpp s
  | .p2rAcu => Sys2Proof.Machine.execP2rAcu s
  | .p2rAcl => Sys2Proof.Machine.execP2rAcl s
  | .p2rRsvd8 => Sys2Proof.Machine.execP2rRsvd8 s
  | .p2rRsvd9 => Sys2Proof.Machine.execP2rRsvd9 s
  | .p2rRsvdA => Sys2Proof.Machine.execP2rRsvdA s
  | .p2rRsvdB => Sys2Proof.Machine.execP2rRsvdB s
  | .p2rRcr => Sys2Proof.Machine.execP2rRcr s
  | .p2rTcr => Sys2Proof.Machine.execP2rTcr s
  | .p2rDcr => Sys2Proof.Machine.execP2rDcr s
  | .p2rImr => Sys2Proof.Machine.execP2rImr s
  | .p2wClda0 d => Sys2Proof.Machine.execP2wClda0 d s
  | .p2wClda1 d => Sys2Proof.Machine.execP2wClda1 d s
  | .p2wRnpp d => Sys2Proof.Machine.execP2wRnpp d s
  | .p2wRsvd4 d => Sys2Proof.Machine.execP2wRsvd4 d s
  | .p2wLnpp d => Sys2Proof.Machine.execP2wLnpp d s
  | .p2wAcu d => Sys2Proof.Machine.execP2wAcu d s
  | .p2wAcl d => Sys2Proof.Machine.execP2wAcl d s
  | .p2wRsvd8 d => Sys2Proof.Machine.execP2wRsvd8 d s
  | .p2wRsvd9 d => Sys2Proof.Machine.execP2wRsvd9 d s
  | .p2wRsvdA d => Sys2Proof.Machine.execP2wRsvdA d s
  | .p2wRsvdB d => Sys2Proof.Machine.execP2wRsvdB d s
  | .p2wRsvdC d => Sys2Proof.Machine.execP2wRsvdC d s
  | .p2wRsvdD d => Sys2Proof.Machine.execP2wRsvdD d s
  | .p2wRsvdE d => Sys2Proof.Machine.execP2wRsvdE d s
  | .p2wRsvdF d => Sys2Proof.Machine.execP2wRsvdF d s
  | .p3r01 => Sys2Proof.Machine.execP3r01 s
  | .p3r02 => Sys2Proof.Machine.execP3r02 s
  | .p3r03 => Sys2Proof.Machine.execP3r03 s
  | .p3r04 => Sys2Proof.Machine.execP3r04 s
  | .p3r05 => Sys2Proof.Machine.execP3r05 s
  | .p3r06 => Sys2Proof.Machine.execP3r06 s
  | .p3r07 => Sys2Proof.Machine.execP3r07 s
  | .p3r08 => Sys2Proof.Machine.execP3r08 s
  | .p3r09 => Sys2Proof.Machine.execP3r09 s
  | .p3r0A => Sys2Proof.Machine.execP3r0A s
  | .p3r0B => Sys2Proof.Machine.execP3r0B s
  | .p3r0C => Sys2Proof.Machine.execP3r0C s
  | .p3r0D => Sys2Proof.Machine.execP3r0D s
  | .p3r0E => Sys2Proof.Machine.execP3r0E s
  | .p3r0F => Sys2Proof.Machine.execP3r0F s
  | .p3w01 d => Sys2Proof.Machine.execP3w01 d s
  | .p3w02 d => Sys2Proof.Machine.execP3w02 d s
  | .p3w03 d => Sys2Proof.Machine.execP3w03 d s
  | .p3w04 d => Sys2Proof.Machine.execP3w04 d s
  | .p3w05 d => Sys2Proof.Machine.execP3w05 d s
  | .p3w06 d => Sys2Proof.Machine.execP3w06 d s
  | .p3w07 d => Sys2Proof.Machine.execP3w07 d s
  | .p3w08 d => Sys2Proof.Machine.execP3w08 d s
  | .p3w09 d => Sys2Proof.Machine.execP3w09 d s
  | .p3w0A d => Sys2Proof.Machine.execP3w0A d s
  | .p3w0B d => Sys2Proof.Machine.execP3w0B d s
  | .p3w0C d => Sys2Proof.Machine.execP3w0C d s
  | .p3w0D d => Sys2Proof.Machine.execP3w0D d s
  | .p3w0E d => Sys2Proof.Machine.execP3w0E d s
  | .p3w0F d => Sys2Proof.Machine.execP3w0F d s
  | .crRdInvalid => Sys2Proof.Machine.execCrRdInvalid s
  | .crRdRead => Sys2Proof.Machine.execCrRdRead s
  | .crRdWrite => Sys2Proof.Machine.execCrRdWrite s
  | .crRdSend => Sys2Proof.Machine.execCrRdSend s
  | .crRdAbort rd => Sys2Proof.Machine.execCrRdAbort rd s
  | .crTxp => Sys2Proof.Machine.execCrTxp s
  | .crSta b => Sys2Proof.Machine.execCrSta b s
  | .crStp b => Sys2Proof.Machine.execCrStp b s
  | .crPs ps => Sys2Proof.Machine.execCrPs ps s
  | .dataRd8 => Sys2Proof.Machine.execDataRd8 s
  | .dataRd16 => Sys2Proof.Machine.execDataRd16 s
  | .dataWr8 v => Sys2Proof.Machine.execDataWr8 v s
  | .dataWr16 v => Sys2Proof.Machine.execDataWr16 v s
  | .resetRd => Sys2Proof.Machine.execResetRd s
  | .resetWr v => Sys2Proof.Machine.execResetWr v s

end Sys2Proof.Machine
end

