-- ==== Sys2Proof/WellFormed.lean ====
section
/-! DEFINITION. Which instructions are well-formed. The operand types admit only what the encodings admit, but for the
Abort command, whose row has bit 5 of the byte (the top bit of `RD`) set (spec/30_encoding.md R105). -/

namespace Sys2Proof

/-- The check of one instruction: an Abort command carries an `RD` of 4 to 7 (spec/30_encoding.md R105, "0b1xx = Abort"). -/
def Instr.wf : Instr → Bool
  | .rdCr => true
  | .wrCr _ => true
  | .p0rClda0 => true
  | .p0rClda1 => true
  | .p0rBnry => true
  | .p0rTsr => true
  | .p0rNcr => true
  | .p0rFifo => true
  | .p0rIsr => true
  | .p0rCrda0 => true
  | .p0rCrda1 => true
  | .p0rRsvdA => true
  | .p0rRsvdB => true
  | .p0rRsr => true
  | .p0rCntr0 => true
  | .p0rCntr1 => true
  | .p0rCntr2 => true
  | .p0wPstart _ => true
  | .p0wPstop _ => true
  | .p0wBnry _ => true
  | .p0wTpsr _ => true
  | .p0wTbcr0 _ => true
  | .p0wTbcr1 _ => true
  | .p0wIsr _ => true
  | .p0wRsar0 _ => true
  | .p0wRsar1 _ => true
  | .p0wRbcr0 _ => true
  | .p0wRbcr1 _ => true
  | .p0wRcr _ => true
  | .p0wTcr _ => true
  | .p0wDcr _ => true
  | .p0wImr _ => true
  | .p1rPar0 => true
  | .p1rPar1 => true
  | .p1rPar2 => true
  | .p1rPar3 => true
  | .p1rPar4 => true
  | .p1rPar5 => true
  | .p1rCurr => true
  | .p1rMar0 => true
  | .p1rMar1 => true
  | .p1rMar2 => true
  | .p1rMar3 => true
  | .p1rMar4 => true
  | .p1rMar5 => true
  | .p1rMar6 => true
  | .p1rMar7 => true
  | .p1wPar0 _ => true
  | .p1wPar1 _ => true
  | .p1wPar2 _ => true
  | .p1wPar3 _ => true
  | .p1wPar4 _ => true
  | .p1wPar5 _ => true
  | .p1wCurr _ => true
  | .p1wMar0 _ => true
  | .p1wMar1 _ => true
  | .p1wMar2 _ => true
  | .p1wMar3 _ => true
  | .p1wMar4 _ => true
  | .p1wMar5 _ => true
  | .p1wMar6 _ => true
  | .p1wMar7 _ => true
  | .p2rPstart => true
  | .p2rPstop => true
  | .p2rRnpp => true
  | .p2rTpsr => true
  | .p2rLnpp => true
  | .p2rAcu => true
  | .p2rAcl => true
  | .p2rRsvd8 => true
  | .p2rRsvd9 => true
  | .p2rRsvdA => true
  | .p2rRsvdB => true
  | .p2rRcr => true
  | .p2rTcr => true
  | .p2rDcr => true
  | .p2rImr => true
  | .p2wClda0 _ => true
  | .p2wClda1 _ => true
  | .p2wRnpp _ => true
  | .p2wRsvd4 _ => true
  | .p2wLnpp _ => true
  | .p2wAcu _ => true
  | .p2wAcl _ => true
  | .p2wRsvd8 _ => true
  | .p2wRsvd9 _ => true
  | .p2wRsvdA _ => true
  | .p2wRsvdB _ => true
  | .p2wRsvdC _ => true
  | .p2wRsvdD _ => true
  | .p2wRsvdE _ => true
  | .p2wRsvdF _ => true
  | .p3r01 => true
  | .p3r02 => true
  | .p3r03 => true
  | .p3r04 => true
  | .p3r05 => true
  | .p3r06 => true
  | .p3r07 => true
  | .p3r08 => true
  | .p3r09 => true
  | .p3r0A => true
  | .p3r0B => true
  | .p3r0C => true
  | .p3r0D => true
  | .p3r0E => true
  | .p3r0F => true
  | .p3w01 _ => true
  | .p3w02 _ => true
  | .p3w03 _ => true
  | .p3w04 _ => true
  | .p3w05 _ => true
  | .p3w06 _ => true
  | .p3w07 _ => true
  | .p3w08 _ => true
  | .p3w09 _ => true
  | .p3w0A _ => true
  | .p3w0B _ => true
  | .p3w0C _ => true
  | .p3w0D _ => true
  | .p3w0E _ => true
  | .p3w0F _ => true
  | .crRdInvalid => true
  | .crRdRead => true
  | .crRdWrite => true
  | .crRdSend => true
  | .crRdAbort rd => rd.getLsbD 2
  | .crTxp => true
  | .crSta _ => true
  | .crStp _ => true
  | .crPs _ => true
  | .dataRd8 => true
  | .dataRd16 => true
  | .dataWr8 _ => true
  | .dataWr16 _ => true
  | .resetRd => true
  | .resetWr _ => true

/-- An instruction that some encoding stands for. -/
abbrev WellFormed (i : Instr) : Prop := i.wf = true

end Sys2Proof
end

