-- ==== Sys2Proof/Decode.lean ====
section
/-! DEFINITION. From access to instruction and back (spec/30_encoding.md R100 to R106). Three formats: REGACC, the
7-bit word `(W, PS, A)` and a data byte; CRVAL, the byte written to `CR`; PORTACC, the 3-bit word `(W, P, S)` and the
data of a write. The decoder of a `REG` access is total: "no access is illegal, none traps" (R103). -/

namespace Sys2Proof

/-- An encoded operation, by format (R100 kinds 1 to 3). -/
inductive BusWord where
  /-- REGACC: the access word of R101 and the data byte of a write. -/
  | regacc (w : BitVec 7) (d : Byte)
  /-- PORTACC: the word of R106 and the data of a write. -/
  | portacc (w : BitVec 3) (v : Word)
  /-- CRVAL: the byte of a `WR.CR` access (R105). -/
  | crval (d : Byte)
  deriving DecidableEq, Repr

/-- The REGACC word of an access: `W` in bit 6, `PS` in bits 5:4, `A` in bits 3:0 (R101). -/
def regWord (w : Bool) (ps : BitVec 2) (a : Nibble) : BitVec 7 := BitVec.ofBool w ++ ps ++ a

/-- The PORTACC word of an access: `W` in bit 2, `P` in bit 1 (1 = reset port), `S` in bit 0 (1 = 16-bit) (R106). -/
def portWord (w p s : Bool) : BitVec 3 := BitVec.ofBool w ++ BitVec.ofBool p ++ BitVec.ofBool s

/-- Page 0 reads, offsets 1 to 15 (spec/30_encoding.md R104). Offset 0 is `CR` on every page and never comes here. -/
def decodePage0Read (a : Nibble) : Instr :=
  match a.toNat with
  | 1 => .p0rClda0
  | 2 => .p0rClda1
  | 3 => .p0rBnry
  | 4 => .p0rTsr
  | 5 => .p0rNcr
  | 6 => .p0rFifo
  | 7 => .p0rIsr
  | 8 => .p0rCrda0
  | 9 => .p0rCrda1
  | 10 => .p0rRsvdA
  | 11 => .p0rRsvdB
  | 12 => .p0rRsr
  | 13 => .p0rCntr0
  | 14 => .p0rCntr1
  | _ => .p0rCntr2

/-- Page 1 reads, offsets 1 to 15 (spec/30_encoding.md R104). Offset 0 is `CR` on every page and never comes here. -/
def decodePage1Read (a : Nibble) : Instr :=
  match a.toNat with
  | 1 => .p1rPar0
  | 2 => .p1rPar1
  | 3 => .p1rPar2
  | 4 => .p1rPar3
  | 5 => .p1rPar4
  | 6 => .p1rPar5
  | 7 => .p1rCurr
  | 8 => .p1rMar0
  | 9 => .p1rMar1
  | 10 => .p1rMar2
  | 11 => .p1rMar3
  | 12 => .p1rMar4
  | 13 => .p1rMar5
  | 14 => .p1rMar6
  | _ => .p1rMar7

/-- Page 2 reads, offsets 1 to 15 (spec/30_encoding.md R104). Offset 0 is `CR` on every page and never comes here. -/
def decodePage2Read (a : Nibble) : Instr :=
  match a.toNat with
  | 1 => .p2rPstart
  | 2 => .p2rPstop
  | 3 => .p2rRnpp
  | 4 => .p2rTpsr
  | 5 => .p2rLnpp
  | 6 => .p2rAcu
  | 7 => .p2rAcl
  | 8 => .p2rRsvd8
  | 9 => .p2rRsvd9
  | 10 => .p2rRsvdA
  | 11 => .p2rRsvdB
  | 12 => .p2rRcr
  | 13 => .p2rTcr
  | 14 => .p2rDcr
  | _ => .p2rImr

/-- Page 3 reads, offsets 1 to 15 (spec/30_encoding.md R104). Offset 0 is `CR` on every page and never comes here. -/
def decodePage3Read (a : Nibble) : Instr :=
  match a.toNat with
  | 1 => .p3r01
  | 2 => .p3r02
  | 3 => .p3r03
  | 4 => .p3r04
  | 5 => .p3r05
  | 6 => .p3r06
  | 7 => .p3r07
  | 8 => .p3r08
  | 9 => .p3r09
  | 10 => .p3r0A
  | 11 => .p3r0B
  | 12 => .p3r0C
  | 13 => .p3r0D
  | 14 => .p3r0E
  | _ => .p3r0F

/-- Page 0 writes, offsets 1 to 15 (spec/30_encoding.md R104). Offset 0 is `CR` on every page and never comes here. -/
def decodePage0Write (a : Nibble) (d : Byte) : Instr :=
  match a.toNat with
  | 1 => .p0wPstart d
  | 2 => .p0wPstop d
  | 3 => .p0wBnry d
  | 4 => .p0wTpsr d
  | 5 => .p0wTbcr0 d
  | 6 => .p0wTbcr1 d
  | 7 => .p0wIsr d
  | 8 => .p0wRsar0 d
  | 9 => .p0wRsar1 d
  | 10 => .p0wRbcr0 d
  | 11 => .p0wRbcr1 d
  | 12 => .p0wRcr d
  | 13 => .p0wTcr d
  | 14 => .p0wDcr d
  | _ => .p0wImr d

/-- Page 1 writes, offsets 1 to 15 (spec/30_encoding.md R104). Offset 0 is `CR` on every page and never comes here. -/
def decodePage1Write (a : Nibble) (d : Byte) : Instr :=
  match a.toNat with
  | 1 => .p1wPar0 d
  | 2 => .p1wPar1 d
  | 3 => .p1wPar2 d
  | 4 => .p1wPar3 d
  | 5 => .p1wPar4 d
  | 6 => .p1wPar5 d
  | 7 => .p1wCurr d
  | 8 => .p1wMar0 d
  | 9 => .p1wMar1 d
  | 10 => .p1wMar2 d
  | 11 => .p1wMar3 d
  | 12 => .p1wMar4 d
  | 13 => .p1wMar5 d
  | 14 => .p1wMar6 d
  | _ => .p1wMar7 d

/-- Page 2 writes, offsets 1 to 15 (spec/30_encoding.md R104). Offset 0 is `CR` on every page and never comes here. -/
def decodePage2Write (a : Nibble) (d : Byte) : Instr :=
  match a.toNat with
  | 1 => .p2wClda0 d
  | 2 => .p2wClda1 d
  | 3 => .p2wRnpp d
  | 4 => .p2wRsvd4 d
  | 5 => .p2wLnpp d
  | 6 => .p2wAcu d
  | 7 => .p2wAcl d
  | 8 => .p2wRsvd8 d
  | 9 => .p2wRsvd9 d
  | 10 => .p2wRsvdA d
  | 11 => .p2wRsvdB d
  | 12 => .p2wRsvdC d
  | 13 => .p2wRsvdD d
  | 14 => .p2wRsvdE d
  | _ => .p2wRsvdF d

/-- Page 3 writes, offsets 1 to 15 (spec/30_encoding.md R104). Offset 0 is `CR` on every page and never comes here. -/
def decodePage3Write (a : Nibble) (d : Byte) : Instr :=
  match a.toNat with
  | 1 => .p3w01 d
  | 2 => .p3w02 d
  | 3 => .p3w03 d
  | 4 => .p3w04 d
  | 5 => .p3w05 d
  | 6 => .p3w06 d
  | 7 => .p3w07 d
  | 8 => .p3w08 d
  | 9 => .p3w09 d
  | 10 => .p3w0A d
  | 11 => .p3w0B d
  | 12 => .p3w0C d
  | 13 => .p3w0D d
  | 14 => .p3w0E d
  | _ => .p3w0F d

/-- The decode procedure of R103: the `CR` rows first (offset 0 whatever `PS` is, R102), then the page that `PS` selects. -/
def decodeReg (w : BitVec 7) (d : Byte) : Instr :=
  let a : Nibble := w.extractLsb' 0 4
  let ps : BitVec 2 := w.extractLsb' 4 2
  if w.getLsbD 6 then
    if a = 0 then .wrCr d else
    match ps.toNat with
    | 0 => decodePage0Write a d
    | 1 => decodePage1Write a d
    | 2 => decodePage2Write a d
    | _ => decodePage3Write a d
  else
    if a = 0 then .rdCr else
    match ps.toNat with
    | 0 => decodePage0Read a
    | 1 => decodePage1Read a
    | 2 => decodePage2Read a
    | _ => decodePage3Read a

/-- The operation of a data-port or reset-port access (R106); an 8-bit write carries its byte in bits 7:0. -/
def decodePort (w : BitVec 3) (v : Word) : Instr :=
  if w.getLsbD 1 then
    if w.getLsbD 2 then .resetWr v else .resetRd
  else if w.getLsbD 2 then
    if w.getLsbD 0 then .dataWr16 v else .dataWr8 (v.setWidth 8)
  else if w.getLsbD 0 then .dataRd16 else .dataRd8

/-- The one remote-DMA row that a byte written to `CR` matches (R105: the five `RD` rows are mutually exclusive). -/
def decodeRd (d : Byte) : Instr :=
  let rd : BitVec 3 := d.extractLsb' 3 3
  if rd.getLsbD 2 then .crRdAbort rd else
  match rd.toNat with
  | 0 => .crRdInvalid
  | 1 => .crRdRead
  | 2 => .crRdWrite
  | _ => .crRdSend

/-- Every row that a byte written to `CR` triggers, in the order of spec/42_command_register.md R230: the start and
stop bits, the transmit trigger if bit 2 is 1, the remote-DMA row, the page (R105). `STA` stands before `STP`: in that
order the two rows run one by one do what R233 says of them together (DEDUCED, log 3). -/
def decodeCrval (d : Byte) : List Instr :=
  [.crSta (d.getLsbD 1), .crStp (d.getLsbD 0)] ++ (if d.getLsbD 2 then [.crTxp] else [])
    ++ [decodeRd d, .crPs (d.extractLsb' 6 2)]

/-- What an encoded operation stands for: one operation, but for a CRVAL byte, which triggers several rows (R105). -/
def decodeWord : BusWord → List Instr
  | .regacc w d => [decodeReg w d]
  | .portacc w v => [decodePort w v]
  | .crval d => decodeCrval d

/-- The encoding of every instruction, from the same tables (R104, R105, R106). Bits that a row ignores are 0, but for
`S` of `RESET.WR`, which is 1: the 16-bit form carries its data whole. -/
def encode : Instr → BusWord
  | .rdCr => .regacc 0x00 0
  | .wrCr d => .regacc 0x40 d
  | .p0rClda0 => .regacc 0x01 0
  | .p0rClda1 => .regacc 0x02 0
  | .p0rBnry => .regacc 0x03 0
  | .p0rTsr => .regacc 0x04 0
  | .p0rNcr => .regacc 0x05 0
  | .p0rFifo => .regacc 0x06 0
  | .p0rIsr => .regacc 0x07 0
  | .p0rCrda0 => .regacc 0x08 0
  | .p0rCrda1 => .regacc 0x09 0
  | .p0rRsvdA => .regacc 0x0A 0
  | .p0rRsvdB => .regacc 0x0B 0
  | .p0rRsr => .regacc 0x0C 0
  | .p0rCntr0 => .regacc 0x0D 0
  | .p0rCntr1 => .regacc 0x0E 0
  | .p0rCntr2 => .regacc 0x0F 0
  | .p0wPstart d => .regacc 0x41 d
  | .p0wPstop d => .regacc 0x42 d
  | .p0wBnry d => .regacc 0x43 d
  | .p0wTpsr d => .regacc 0x44 d
  | .p0wTbcr0 d => .regacc 0x45 d
  | .p0wTbcr1 d => .regacc 0x46 d
  | .p0wIsr d => .regacc 0x47 d
  | .p0wRsar0 d => .regacc 0x48 d
  | .p0wRsar1 d => .regacc 0x49 d
  | .p0wRbcr0 d => .regacc 0x4A d
  | .p0wRbcr1 d => .regacc 0x4B d
  | .p0wRcr d => .regacc 0x4C d
  | .p0wTcr d => .regacc 0x4D d
  | .p0wDcr d => .regacc 0x4E d
  | .p0wImr d => .regacc 0x4F d
  | .p1rPar0 => .regacc 0x11 0
  | .p1rPar1 => .regacc 0x12 0
  | .p1rPar2 => .regacc 0x13 0
  | .p1rPar3 => .regacc 0x14 0
  | .p1rPar4 => .regacc 0x15 0
  | .p1rPar5 => .regacc 0x16 0
  | .p1rCurr => .regacc 0x17 0
  | .p1rMar0 => .regacc 0x18 0
  | .p1rMar1 => .regacc 0x19 0
  | .p1rMar2 => .regacc 0x1A 0
  | .p1rMar3 => .regacc 0x1B 0
  | .p1rMar4 => .regacc 0x1C 0
  | .p1rMar5 => .regacc 0x1D 0
  | .p1rMar6 => .regacc 0x1E 0
  | .p1rMar7 => .regacc 0x1F 0
  | .p1wPar0 d => .regacc 0x51 d
  | .p1wPar1 d => .regacc 0x52 d
  | .p1wPar2 d => .regacc 0x53 d
  | .p1wPar3 d => .regacc 0x54 d
  | .p1wPar4 d => .regacc 0x55 d
  | .p1wPar5 d => .regacc 0x56 d
  | .p1wCurr d => .regacc 0x57 d
  | .p1wMar0 d => .regacc 0x58 d
  | .p1wMar1 d => .regacc 0x59 d
  | .p1wMar2 d => .regacc 0x5A d
  | .p1wMar3 d => .regacc 0x5B d
  | .p1wMar4 d => .regacc 0x5C d
  | .p1wMar5 d => .regacc 0x5D d
  | .p1wMar6 d => .regacc 0x5E d
  | .p1wMar7 d => .regacc 0x5F d
  | .p2rPstart => .regacc 0x21 0
  | .p2rPstop => .regacc 0x22 0
  | .p2rRnpp => .regacc 0x23 0
  | .p2rTpsr => .regacc 0x24 0
  | .p2rLnpp => .regacc 0x25 0
  | .p2rAcu => .regacc 0x26 0
  | .p2rAcl => .regacc 0x27 0
  | .p2rRsvd8 => .regacc 0x28 0
  | .p2rRsvd9 => .regacc 0x29 0
  | .p2rRsvdA => .regacc 0x2A 0
  | .p2rRsvdB => .regacc 0x2B 0
  | .p2rRcr => .regacc 0x2C 0
  | .p2rTcr => .regacc 0x2D 0
  | .p2rDcr => .regacc 0x2E 0
  | .p2rImr => .regacc 0x2F 0
  | .p2wClda0 d => .regacc 0x61 d
  | .p2wClda1 d => .regacc 0x62 d
  | .p2wRnpp d => .regacc 0x63 d
  | .p2wRsvd4 d => .regacc 0x64 d
  | .p2wLnpp d => .regacc 0x65 d
  | .p2wAcu d => .regacc 0x66 d
  | .p2wAcl d => .regacc 0x67 d
  | .p2wRsvd8 d => .regacc 0x68 d
  | .p2wRsvd9 d => .regacc 0x69 d
  | .p2wRsvdA d => .regacc 0x6A d
  | .p2wRsvdB d => .regacc 0x6B d
  | .p2wRsvdC d => .regacc 0x6C d
  | .p2wRsvdD d => .regacc 0x6D d
  | .p2wRsvdE d => .regacc 0x6E d
  | .p2wRsvdF d => .regacc 0x6F d
  | .p3r01 => .regacc 0x31 0
  | .p3r02 => .regacc 0x32 0
  | .p3r03 => .regacc 0x33 0
  | .p3r04 => .regacc 0x34 0
  | .p3r05 => .regacc 0x35 0
  | .p3r06 => .regacc 0x36 0
  | .p3r07 => .regacc 0x37 0
  | .p3r08 => .regacc 0x38 0
  | .p3r09 => .regacc 0x39 0
  | .p3r0A => .regacc 0x3A 0
  | .p3r0B => .regacc 0x3B 0
  | .p3r0C => .regacc 0x3C 0
  | .p3r0D => .regacc 0x3D 0
  | .p3r0E => .regacc 0x3E 0
  | .p3r0F => .regacc 0x3F 0
  | .p3w01 d => .regacc 0x71 d
  | .p3w02 d => .regacc 0x72 d
  | .p3w03 d => .regacc 0x73 d
  | .p3w04 d => .regacc 0x74 d
  | .p3w05 d => .regacc 0x75 d
  | .p3w06 d => .regacc 0x76 d
  | .p3w07 d => .regacc 0x77 d
  | .p3w08 d => .regacc 0x78 d
  | .p3w09 d => .regacc 0x79 d
  | .p3w0A d => .regacc 0x7A d
  | .p3w0B d => .regacc 0x7B d
  | .p3w0C d => .regacc 0x7C d
  | .p3w0D d => .regacc 0x7D d
  | .p3w0E d => .regacc 0x7E d
  | .p3w0F d => .regacc 0x7F d
  | .crRdInvalid => .crval 0x00
  | .crRdRead => .crval 0x08
  | .crRdWrite => .crval 0x10
  | .crRdSend => .crval 0x18
  | .crRdAbort rd => .crval ((0 : BitVec 2) ++ rd ++ (0 : BitVec 3))
  | .crTxp => .crval 0x04
  | .crSta b => .crval ((0 : BitVec 6) ++ BitVec.ofBool b ++ (0 : BitVec 1))
  | .crStp b => .crval ((0 : BitVec 7) ++ BitVec.ofBool b)
  | .crPs ps => .crval (ps ++ (0 : BitVec 6))
  | .dataRd8 => .portacc 0 0
  | .dataRd16 => .portacc 1 0
  | .dataWr8 v => .portacc 4 (v.setWidth 16)
  | .dataWr16 v => .portacc 5 v
  | .resetRd => .portacc 2 0
  | .resetWr v => .portacc 7 v

/-- One row of spec/opcode_table.json: which format, and the bits of the word it fixes (`pat` under `mask`). -/
structure Row where
  fmt : Nat
  mask : Byte
  pat : Byte
  deriving DecidableEq, Repr

/-- The opcode table: the row of every instruction (format 0 = REGACC, 1 = CRVAL, 2 = PORTACC). -/
def Instr.row : Instr → Row
  | .rdCr => ⟨0, 0x4F, 0x00⟩
  | .wrCr _ => ⟨0, 0x4F, 0x40⟩
  | .p0rClda0 => ⟨0, 0x7F, 0x01⟩
  | .p0rClda1 => ⟨0, 0x7F, 0x02⟩
  | .p0rBnry => ⟨0, 0x7F, 0x03⟩
  | .p0rTsr => ⟨0, 0x7F, 0x04⟩
  | .p0rNcr => ⟨0, 0x7F, 0x05⟩
  | .p0rFifo => ⟨0, 0x7F, 0x06⟩
  | .p0rIsr => ⟨0, 0x7F, 0x07⟩
  | .p0rCrda0 => ⟨0, 0x7F, 0x08⟩
  | .p0rCrda1 => ⟨0, 0x7F, 0x09⟩
  | .p0rRsvdA => ⟨0, 0x7F, 0x0A⟩
  | .p0rRsvdB => ⟨0, 0x7F, 0x0B⟩
  | .p0rRsr => ⟨0, 0x7F, 0x0C⟩
  | .p0rCntr0 => ⟨0, 0x7F, 0x0D⟩
  | .p0rCntr1 => ⟨0, 0x7F, 0x0E⟩
  | .p0rCntr2 => ⟨0, 0x7F, 0x0F⟩
  | .p0wPstart _ => ⟨0, 0x7F, 0x41⟩
  | .p0wPstop _ => ⟨0, 0x7F, 0x42⟩
  | .p0wBnry _ => ⟨0, 0x7F, 0x43⟩
  | .p0wTpsr _ => ⟨0, 0x7F, 0x44⟩
  | .p0wTbcr0 _ => ⟨0, 0x7F, 0x45⟩
  | .p0wTbcr1 _ => ⟨0, 0x7F, 0x46⟩
  | .p0wIsr _ => ⟨0, 0x7F, 0x47⟩
  | .p0wRsar0 _ => ⟨0, 0x7F, 0x48⟩
  | .p0wRsar1 _ => ⟨0, 0x7F, 0x49⟩
  | .p0wRbcr0 _ => ⟨0, 0x7F, 0x4A⟩
  | .p0wRbcr1 _ => ⟨0, 0x7F, 0x4B⟩
  | .p0wRcr _ => ⟨0, 0x7F, 0x4C⟩
  | .p0wTcr _ => ⟨0, 0x7F, 0x4D⟩
  | .p0wDcr _ => ⟨0, 0x7F, 0x4E⟩
  | .p0wImr _ => ⟨0, 0x7F, 0x4F⟩
  | .p1rPar0 => ⟨0, 0x7F, 0x11⟩
  | .p1rPar1 => ⟨0, 0x7F, 0x12⟩
  | .p1rPar2 => ⟨0, 0x7F, 0x13⟩
  | .p1rPar3 => ⟨0, 0x7F, 0x14⟩
  | .p1rPar4 => ⟨0, 0x7F, 0x15⟩
  | .p1rPar5 => ⟨0, 0x7F, 0x16⟩
  | .p1rCurr => ⟨0, 0x7F, 0x17⟩
  | .p1rMar0 => ⟨0, 0x7F, 0x18⟩
  | .p1rMar1 => ⟨0, 0x7F, 0x19⟩
  | .p1rMar2 => ⟨0, 0x7F, 0x1A⟩
  | .p1rMar3 => ⟨0, 0x7F, 0x1B⟩
  | .p1rMar4 => ⟨0, 0x7F, 0x1C⟩
  | .p1rMar5 => ⟨0, 0x7F, 0x1D⟩
  | .p1rMar6 => ⟨0, 0x7F, 0x1E⟩
  | .p1rMar7 => ⟨0, 0x7F, 0x1F⟩
  | .p1wPar0 _ => ⟨0, 0x7F, 0x51⟩
  | .p1wPar1 _ => ⟨0, 0x7F, 0x52⟩
  | .p1wPar2 _ => ⟨0, 0x7F, 0x53⟩
  | .p1wPar3 _ => ⟨0, 0x7F, 0x54⟩
  | .p1wPar4 _ => ⟨0, 0x7F, 0x55⟩
  | .p1wPar5 _ => ⟨0, 0x7F, 0x56⟩
  | .p1wCurr _ => ⟨0, 0x7F, 0x57⟩
  | .p1wMar0 _ => ⟨0, 0x7F, 0x58⟩
  | .p1wMar1 _ => ⟨0, 0x7F, 0x59⟩
  | .p1wMar2 _ => ⟨0, 0x7F, 0x5A⟩
  | .p1wMar3 _ => ⟨0, 0x7F, 0x5B⟩
  | .p1wMar4 _ => ⟨0, 0x7F, 0x5C⟩
  | .p1wMar5 _ => ⟨0, 0x7F, 0x5D⟩
  | .p1wMar6 _ => ⟨0, 0x7F, 0x5E⟩
  | .p1wMar7 _ => ⟨0, 0x7F, 0x5F⟩
  | .p2rPstart => ⟨0, 0x7F, 0x21⟩
  | .p2rPstop => ⟨0, 0x7F, 0x22⟩
  | .p2rRnpp => ⟨0, 0x7F, 0x23⟩
  | .p2rTpsr => ⟨0, 0x7F, 0x24⟩
  | .p2rLnpp => ⟨0, 0x7F, 0x25⟩
  | .p2rAcu => ⟨0, 0x7F, 0x26⟩
  | .p2rAcl => ⟨0, 0x7F, 0x27⟩
  | .p2rRsvd8 => ⟨0, 0x7F, 0x28⟩
  | .p2rRsvd9 => ⟨0, 0x7F, 0x29⟩
  | .p2rRsvdA => ⟨0, 0x7F, 0x2A⟩
  | .p2rRsvdB => ⟨0, 0x7F, 0x2B⟩
  | .p2rRcr => ⟨0, 0x7F, 0x2C⟩
  | .p2rTcr => ⟨0, 0x7F, 0x2D⟩
  | .p2rDcr => ⟨0, 0x7F, 0x2E⟩
  | .p2rImr => ⟨0, 0x7F, 0x2F⟩
  | .p2wClda0 _ => ⟨0, 0x7F, 0x61⟩
  | .p2wClda1 _ => ⟨0, 0x7F, 0x62⟩
  | .p2wRnpp _ => ⟨0, 0x7F, 0x63⟩
  | .p2wRsvd4 _ => ⟨0, 0x7F, 0x64⟩
  | .p2wLnpp _ => ⟨0, 0x7F, 0x65⟩
  | .p2wAcu _ => ⟨0, 0x7F, 0x66⟩
  | .p2wAcl _ => ⟨0, 0x7F, 0x67⟩
  | .p2wRsvd8 _ => ⟨0, 0x7F, 0x68⟩
  | .p2wRsvd9 _ => ⟨0, 0x7F, 0x69⟩
  | .p2wRsvdA _ => ⟨0, 0x7F, 0x6A⟩
  | .p2wRsvdB _ => ⟨0, 0x7F, 0x6B⟩
  | .p2wRsvdC _ => ⟨0, 0x7F, 0x6C⟩
  | .p2wRsvdD _ => ⟨0, 0x7F, 0x6D⟩
  | .p2wRsvdE _ => ⟨0, 0x7F, 0x6E⟩
  | .p2wRsvdF _ => ⟨0, 0x7F, 0x6F⟩
  | .p3r01 => ⟨0, 0x7F, 0x31⟩
  | .p3r02 => ⟨0, 0x7F, 0x32⟩
  | .p3r03 => ⟨0, 0x7F, 0x33⟩
  | .p3r04 => ⟨0, 0x7F, 0x34⟩
  | .p3r05 => ⟨0, 0x7F, 0x35⟩
  | .p3r06 => ⟨0, 0x7F, 0x36⟩
  | .p3r07 => ⟨0, 0x7F, 0x37⟩
  | .p3r08 => ⟨0, 0x7F, 0x38⟩
  | .p3r09 => ⟨0, 0x7F, 0x39⟩
  | .p3r0A => ⟨0, 0x7F, 0x3A⟩
  | .p3r0B => ⟨0, 0x7F, 0x3B⟩
  | .p3r0C => ⟨0, 0x7F, 0x3C⟩
  | .p3r0D => ⟨0, 0x7F, 0x3D⟩
  | .p3r0E => ⟨0, 0x7F, 0x3E⟩
  | .p3r0F => ⟨0, 0x7F, 0x3F⟩
  | .p3w01 _ => ⟨0, 0x7F, 0x71⟩
  | .p3w02 _ => ⟨0, 0x7F, 0x72⟩
  | .p3w03 _ => ⟨0, 0x7F, 0x73⟩
  | .p3w04 _ => ⟨0, 0x7F, 0x74⟩
  | .p3w05 _ => ⟨0, 0x7F, 0x75⟩
  | .p3w06 _ => ⟨0, 0x7F, 0x76⟩
  | .p3w07 _ => ⟨0, 0x7F, 0x77⟩
  | .p3w08 _ => ⟨0, 0x7F, 0x78⟩
  | .p3w09 _ => ⟨0, 0x7F, 0x79⟩
  | .p3w0A _ => ⟨0, 0x7F, 0x7A⟩
  | .p3w0B _ => ⟨0, 0x7F, 0x7B⟩
  | .p3w0C _ => ⟨0, 0x7F, 0x7C⟩
  | .p3w0D _ => ⟨0, 0x7F, 0x7D⟩
  | .p3w0E _ => ⟨0, 0x7F, 0x7E⟩
  | .p3w0F _ => ⟨0, 0x7F, 0x7F⟩
  | .crRdInvalid => ⟨1, 0x38, 0x00⟩
  | .crRdRead => ⟨1, 0x38, 0x08⟩
  | .crRdWrite => ⟨1, 0x38, 0x10⟩
  | .crRdSend => ⟨1, 0x38, 0x18⟩
  | .crRdAbort _ => ⟨1, 0x20, 0x20⟩
  | .crTxp => ⟨1, 0x04, 0x04⟩
  | .crSta _ => ⟨1, 0x00, 0x00⟩
  | .crStp _ => ⟨1, 0x00, 0x00⟩
  | .crPs _ => ⟨1, 0x00, 0x00⟩
  | .dataRd8 => ⟨2, 0x07, 0x00⟩
  | .dataRd16 => ⟨2, 0x07, 0x01⟩
  | .dataWr8 _ => ⟨2, 0x07, 0x04⟩
  | .dataWr16 _ => ⟨2, 0x07, 0x05⟩
  | .resetRd => ⟨2, 0x06, 0x02⟩
  | .resetWr _ => ⟨2, 0x06, 0x06⟩

/-- The format of an encoded operation, numbered as `Row.fmt`. -/
def BusWord.fmt : BusWord → Nat
  | .regacc _ _ => 0
  | .crval _ => 1
  | .portacc _ _ => 2

/-- The bits of an encoded operation that the opcode table's masks and patterns speak of. -/
def BusWord.bits : BusWord → Byte
  | .regacc w _ => w.setWidth 8
  | .crval d => d
  | .portacc w _ => w.setWidth 8

/-- Why bytes are no access. -/
inductive DecodeError where
  /-- There is no first byte. -/
  | noWord
  /-- Bits 6:3 of a port access's first byte are not zero: the word of R106 has three bits. -/
  | reservedBits
  /-- A write lacks its data. -/
  | missingData
  deriving DecidableEq, Repr

/-- An access written as bytes, the form the host's words are read in (DESIGN CHOICE, log 2): bit 7 of the first byte
tells the ports apart. 0: the REGACC word, then the data byte of a write (the form of spec/95_test_vectors.md, "the
REGACC word in hex (for `WR` followed by the data byte)"). 1: the PORTACC word in bits 2:0, then one byte of data, or
two, low byte first, for a 16-bit write. Bytes after the access are not looked at. -/
def busWordOfBytes : List Byte → Except DecodeError BusWord
  | [] => .error .noWord
  | b :: rest =>
    if b.getLsbD 7 = false then
      if b.getLsbD 6 then
        match rest with
        | d :: _ => .ok (.regacc (b.setWidth 7) d)
        | [] => .error .missingData
      else .ok (.regacc (b.setWidth 7) 0)
    else if b.extractLsb' 3 4 = 0 then
      if b.getLsbD 2 then
        if b.getLsbD 0 then
          match rest with
          | lo :: hi :: _ => .ok (.portacc (b.setWidth 3) (hi ++ lo))
          | _ => .error .missingData
        else
          match rest with
          | lo :: _ => .ok (.portacc (b.setWidth 3) (lo.setWidth 16))
          | [] => .error .missingData
      else .ok (.portacc (b.setWidth 3) 0)
    else .error .reservedBits

/-- The instruction that bytes stand for; rejected by name where they are no access. -/
def decodeBytes (bs : List Byte) : Except DecodeError Instr :=
  match busWordOfBytes bs with
  | .ok (.regacc w d) => .ok (decodeReg w d)
  | .ok (.portacc w v) => .ok (decodePort w v)
  | .ok (.crval d) => .ok (.wrCr d)
  | .error e => .error e

/-- The bytes of an access; a CRVAL byte is carried by a `WR.CR` access (R105). -/
def BusWord.toBytes : BusWord → List Byte
  | .regacc w d => [w.setWidth 8, d]
  | .portacc w v => [(0x10 : BitVec 5) ++ w, v.setWidth 8, v.extractLsb' 8 8]
  | .crval d => [0x40, d]

/-- The three bytes of the number the host hands over: the low byte is the first, bits above `nbits` are 0. The
longest access has three bytes (a 16-bit port write). -/
def tableBytes (nbits w : Nat) : List Byte :=
  let x := w % 2 ^ nbits
  [BitVec.ofNat 8 x, BitVec.ofNat 8 (x / 256), BitVec.ofNat 8 (x / 65536)]

/-- The instruction the decoder reads from an opcode-table word (log 2). -/
def decodeTableWord (nbits w : Nat) : Option Instr :=
  match decodeBytes (tableBytes nbits w) with
  | .ok i => some i
  | .error _ => none

end Sys2Proof
end

