-- ==== Sys2Proof/Machine/Events.lean ====
section
/-! DEFINITION. What the network and the environment do (spec/30_encoding.md R100 kind 4; spec/10_state.md R48), and the
adapter's shared-memory window and PROM (spec/46_oem_wrappers.md R363, R365). -/

namespace Sys2Proof.Machine

/-- The WD boards (R363). -/
def isWd (v : Variant) : Bool :=
  match v with
  | .wd8003 | .wd8013 => true
  | .ne1000 | .ne2000 | .el3c503 => false

/-- The 3C503 (R365). -/
def isEl3c503 (v : Variant) : Bool :=
  match v with
  | .el3c503 => true
  | .ne1000 | .ne2000 | .wd8003 | .wd8013 => false

/-- The local RAM offset of a host memory address in the WD shared-memory window, while `CTRL1.MEME` is 1 (R363). -/
def sharedOffset (s : State) (addr : Nat) : Option Nat :=
  if isWd s.cfg.variant && s.meme && decide (s.cfg.shmemBase ≤ addr)
      && decide (addr < s.cfg.shmemBase + s.cfg.shmemSize) then
    some ((addr - s.cfg.shmemBase) % 0x4000)
  else none

/-- The byte that a read of register offset `a` returns on a 3C503 while the PROM is mapped: `ealo` selects PROM bytes 0
to 15, `eahi` bytes 16 to 31 (R365); with both set the free value of count `n` (log 8). -/
def promByte (s : State) (a n : Nat) : Byte :=
  if s.ealo && s.eahi then Config.freePromByte n
  else s.cfg.prom.toList.getD (if s.eahi then 16 + a else a) 0

/-- A read of the mapped PROM at register offset `a`: one byte, or two with the byte of the lower port in bits 7:0
(R365; the order of the two is log 35). -/
def promRead (s : State) (wide : Bool) (a : Nibble) : State :=
  let both := s.ealo && s.eahi
  if wide then
    { s with freeCount := if both then s.freeCount + 2 else s.freeCount }.withReply
      (.word (promByte s (a.toNat + 1) (s.freeCount + 1) ++ promByte s a.toNat s.freeCount))
  else
    { s with freeCount := if both then s.freeCount + 1 else s.freeCount }.withReply
      (.byte (promByte s a.toNat s.freeCount))

/-- The effect of an event. The Gate Array levels exist on the 3C503 only, and a change of them runs the aggregation
pass (spec/60_exceptions.md R387, R392); a wrapper bit that the variant has not is no event of it. -/
def applyEvent (e : Event) (s : State) : State :=
  match e with
  | .netRx frame => netRx s frame
  | .hardReset => hardReset s
  | .linkUp b => { s with linkUp := b }
  | .run b => { s with running := b }
  | .gateArray nim tcm dtc =>
    if isEl3c503 s.cfg.variant then updateIrq { s with gaNim := nim, gaTcm := tcm, gaDtc := dtc } else s
  | .netAnswer r => { s with netAnswers := s.netAnswers ++ [r] }
  | .promMap ealo eahi => if isEl3c503 s.cfg.variant then { s with ealo := ealo, eahi := eahi } else s
  | .memEnable b => if isWd s.cfg.variant then { s with meme := b } else s
  | .shmemRead addr =>
    match sharedOffset s addr with
    | some o => s.withReply (.byte (Memory.read s.ram o))
    | none => s
  | .shmemWrite addr b =>
    match sharedOffset s addr with
    | some o => s.withRam (Memory.write s.ram o b)
    | none => s

end Sys2Proof.Machine
end

