-- ==== Sys2Proof/Machine/Fetch.lean ====
section
/-! DEFINITION. From the oldest coming operation to what the core does: the routing of host I/O ports
(spec/46_oem_wrappers.md R361 to R365) and the decoding of an access under the page in force (spec/30_encoding.md
R101 to R103, R106). -/

namespace Sys2Proof.Machine

/-- Where a host I/O port of the adapter leads. -/
inductive Route where
  | reg (a : Nibble)
  | data
  | reset
  | prom (a : Nibble)
  | wrapper
  | absent
  deriving DecidableEq, Repr

/-- The port layouts of R361 (NE1000), R362 (NE2000), R363 (WD8003, WD8013), R365 (3C503; `mapped` = `ealo` or `eahi`
set). A port outside the adapter's window is `absent` (log 22). -/
def route (p : Params) (mapped : Bool) (port : Nat) : Route :=
  let off := port - p.ioBase
  if port < p.ioBase then .absent else
  match p.variant with
  | .ne1000 =>
    if off < 0x10 then .reg (BitVec.ofNat 4 off)
    else if off < 0x20 then (if off % 8 < 4 then .data else .reset)
    else .absent
  | .ne2000 =>
    if off < 0x10 then .reg (BitVec.ofNat 4 off)
    else if off < 0x18 then .data
    else if off < 0x20 then .reset
    else .absent
  | .wd8003 | .wd8013 =>
    if off < 0x10 then .wrapper
    else if off < 0x20 then .reg (BitVec.ofNat 4 (off - 0x10))
    else .absent
  | .el3c503 =>
    if off < 0x10 then (if mapped then .prom (BitVec.ofNat 4 off) else .reg (BitVec.ofNat 4 off))
    else if 0x400 ≤ off ∧ off < 0x410 then .wrapper
    else .absent

/-- What the next step does. -/
inductive Fetched where
  /-- No operation is waiting: the core waits. -/
  | idle
  /-- An instruction. -/
  | instr (i : Instr)
  /-- An event. -/
  | event (e : Event)
  /-- A read of the PROM in place of a core register (R365). -/
  | prom (wide : Bool) (a : Nibble)
  /-- An access that reaches nothing of this hardware, or that the adapter drops. -/
  | ignored
  /-- A 16-bit access that the adapter performs as 8-bit accesses (log 35). -/
  | split (w : Bool) (port : Nat) (v : Word)
  /-- An access to which the spec gives no meaning. -/
  | refuse (r : Refusal)
  deriving DecidableEq, Repr

/-- The instruction of a `REG` access under the page in force (R101, R103). -/
def regInstr (s : State) (w : Bool) (a : Nibble) (d : Byte) : Instr := decodeReg (regWord w (crPs s.cr) a) d

/-- The instruction of a `DATA` (`p` = false) or `RESET` (`p` = true) access (R106). -/
def portInstr (w p wide : Bool) (v : Word) : Instr := decodePort (portWord w p wide) v

/-- An 8-bit access to a host I/O port: the tables of R361 to R365. A write while the PROM is mapped is dropped (R365);
wrapper registers are refused (log 22). -/
def fetchPort (s : State) (w : Bool) (port : Nat) (v : Word) : Fetched :=
  match route s.cfg (s.ealo || s.eahi) port with
  | .reg a => .instr (regInstr s w a (v.setWidth 8))
  | .data => .instr (portInstr w false false v)
  | .reset => .instr (portInstr w true false v)
  | .prom a => if w then .ignored else .prom false a
  | .wrapper => .refuse .wrapperRegister
  | .absent => .ignored

/-- What a 16-bit access to host I/O ports is, by where its lower and its upper port lead. One operation: in the data
group of the NE2000 (R362) and in a reset group, whose accesses of either width do the same (N9; log 22). PROM bytes are
read two at once, and a write to them is dropped at any width (R365). Every other one, an access that straddles two groups
or an edge of a window among them, is split by the adapter in a way the spec leaves open (N9; log 35). -/
def fetchWide (s : State) (w : Bool) (port : Nat) (v : Word) : Fetched :=
  match route s.cfg (s.ealo || s.eahi) port, route s.cfg (s.ealo || s.eahi) (port + 1) with
  | .data, .data => if s.cfg.variant = .ne2000 then .instr (portInstr w false true v) else .split w port v
  | .reset, .reset => .instr (portInstr w true true v)
  | .prom a, .prom _ => if w then .ignored else .prom true a
  | .prom _, .absent | .absent, .prom _ => if w then .ignored else .split w port v
  | .wrapper, .wrapper => .refuse .wrapperRegister
  | .absent, .absent => .ignored
  | _, _ => .split w port v

/-- What an access is. The abstract ports `DATA` and `RESET` are taken on every variant (log 32). -/
def fetchAccess (s : State) (a : Access) : Fetched :=
  match a with
  | .reg w a d => .instr (regInstr s w a d)
  | .data w wide v => .instr (portInstr w false wide v)
  | .reset w wide v => .instr (portInstr w true wide v)
  | .io w wide port v => if wide then fetchWide s w port v else fetchPort s w port v

/-- The 8-bit accesses of a split 16-bit access: the low byte at the lower port (log 35). -/
def splitPieces (how : Split) (w : Bool) (port : Nat) (v : Word) : List Input :=
  let low : Input := .access (.io w false port (v &&& 0x00FF))
  let high : Input := .access (.io w false (port + 1) (v >>> 8))
  match how with
  | .lowFirst => [low, high]
  | .highFirst => [high, low]
  | .lowOnly => [low]
  | .highOnly => [high]
  | .neither => []

/-- The adapter splits a 16-bit access: the pieces come before every other operation, the way is a free value
(log 35). -/
def splitAccess (s : State) (w : Bool) (port : Nat) (v : Word) : State :=
  { s with
    inputs := splitPieces (Config.freeSplit s.freeCount) w port v ++ s.inputs
    freeCount := s.freeCount + 1 }

/-- The oldest coming operation (spec/20_memory.md R90). -/
def fetch (s : State) : Fetched :=
  match s.inputs with
  | [] => .idle
  | .access a :: _ => fetchAccess s a
  | .event e :: _ => .event e

/-- The access that an encoded operation is, without its page. -/
def accessOf (w : BusWord) : Access :=
  match w with
  | .regacc w d => .reg (w.getLsbD 6) (w.extractLsb' 0 4) d
  | .portacc w v =>
    if w.getLsbD 1 then .reset (w.getLsbD 2) (w.getLsbD 0) v else .data (w.getLsbD 2) (w.getLsbD 0) v
  | .crval d => .reg true 0 d

/-- The state in which an encoded operation is the next one; a REGACC word carries the page it is for (R101), so
`CR.PS` takes it. -/
def placeWord (s : State) (w : BusWord) : State :=
  match w with
  | .regacc r _ =>
    { s with cr := setPs s.cr (r.extractLsb' 4 2), inputs := .access (accessOf w) :: s.inputs }
  | .portacc _ _ | .crval _ => { s with inputs := .access (accessOf w) :: s.inputs }

end Sys2Proof.Machine
end

