-- ==== Sys2Proof/Machine/Step.lean ====
section
/-! DEFINITION. One step: the oldest coming operation, whole and indivisible (spec/00_scope.md R12). -/

namespace Sys2Proof.Machine

/-- One step. With no operation waiting the core waits: it has no autonomous step (spec/00_scope.md R13; log 1). -/
def step (s : State) : Host.Outcome State Fault Refusal :=
  match fetch s with
  | .idle => .next s
  | .instr i => exec i s.advance
  | .event e => .next (applyEvent e s.advance)
  | .prom wide a => .next (promRead s.advance wide a)
  | .ignored => .next s.advance
  | .split w port v => .next (splitAccess s.advance w port v)
  | .refuse r => .refused r

/-- `s` with the access that an opcode-table word stands for as the very next operation (log 2). -/
def State.withFetchWord (s : State) (nbits w : Nat) : State :=
  match busWordOfBytes (tableBytes nbits w) with
  | .ok bw => placeWord s bw
  | .error _ => s

end Sys2Proof.Machine
end

