-- ==== Sys2Proof/Safety.lean ====
section
/-! DEFINITION. What the claims call a legal state, and the states of the reset state machine
(spec/70_reset_and_hazards.md R413). -/

namespace Sys2Proof.Safety

open Sys2Proof.Machine

/-- The reset state machine of R413: a function of `CR`, not a variable. -/
inductive RunState where
  | halted
  | idle
  | running
  deriving DecidableEq, Repr

/-- The state of R413. -/
def runState (s : State) : RunState :=
  if crStp s.cr then .halted else if crSta s.cr then .running else .idle

/-- The hardwired-zero bits of `IMR`, `DCR`, `RCR`, `TCR` read 0 (spec/10_state.md R24 to R28). -/
abbrev ReservedZero (s : State) : Prop :=
  s.imr &&& 0x80 = 0 ∧ s.dcr &&& 0x80 = 0 ∧ s.rcr &&& 0xC0 = 0 ∧ s.tcr &&& 0xE0 = 0

/-- No transmission is in progress between two operations (spec/42_command_register.md R242). -/
abbrev TransmitterIdle (s : State) : Prop := crTxp s.cr = false

/-- `CNTR0` and `CNTR1` never count, `CNTR2` counts to 192, `ISR.CNT` is 0 (spec/10_state.md R43,
spec/44_receive.md R296, spec/60_exceptions.md R386). -/
abbrev CountersLegal (s : State) : Prop :=
  s.cntr0 = 0 ∧ s.cntr1 = 0 ∧ s.cntr2 ≤ 192 ∧ s.isr.getLsbD 5 = false

/-- The values that the engines ever give `RSR` (spec/44_receive.md R302; spec/45_transmit.md R337, R338) and `TSR`
(spec/45_transmit.md R322, R326, R328, R329, R339). -/
abbrev StatusLegal (s : State) : Prop :=
  s.rsr ∈ ([0x00, 0x01, 0x02, 0x10, 0x21, 0x30] : List Byte) ∧
  s.tsr ∈ ([0x00, 0x01, 0x04, 0x41, 0x51, 0x80] : List Byte)

/-- A stopped core shows `ISR.RST` (spec/70_reset_and_hazards.md R413, state Halted). -/
abbrev HaltReported (s : State) : Prop := crStp s.cr = true → s.isr.getLsbD 7 = true

/-- The line has the level of the pending, enabled causes (spec/60_exceptions.md R387). -/
abbrev LineCoherent (s : State) : Prop := s.irqLevel = irqLevelFor s s.isr

/-- Local RAM keeps its canonical form. -/
abbrev RamCanonical (s : State) : Prop := Memory.wf s.ram = true

/-- A legal state. -/
structure Legal (s : State) : Prop where
  reserved : ReservedZero s
  idleTransmitter : TransmitterIdle s
  counters : CountersLegal s
  status : StatusLegal s
  halt : HaltReported s
  line : LineCoherent s
  ram : RamCanonical s

/-- A host program: instructions one after another, stopping at the first that has no next state. -/
def runAll : List Instr → State → Host.Outcome State Fault Refusal
  | [], s => .next s
  | i :: is, s =>
    match exec i s with
    | .next t => runAll is t
    | .fault r => .fault r
    | .refused r => .refused r

/-- `SETRSAR a` and `SETRBCR n` (spec/30_encoding.md R112). -/
def setupTransfer (a n : Word) : List Instr :=
  [.p0wRsar0 (loByte a), .p0wRsar1 (hiByte a), .p0wRbcr0 (loByte n), .p0wRbcr1 (hiByte n)]

/-- The MSB-first CRC register after one bit: polynomial 0x04C11DB7, the bit compared with bit 31 of the register
(spec/44_receive.md R289). -/
def msbCrcBit (r : BitVec 32) (b : Bool) : BitVec 32 :=
  if r.getLsbD 31 != b then (r <<< 1) ^^^ 0x04C11DB7 else r <<< 1

/-- The MSB-first CRC register over bytes, each byte fed least significant bit first, initial value 0xFFFFFFFF, no
final inversion (R289). -/
def msbCrc (bs : List Byte) : BitVec 32 :=
  bs.foldl (fun r b => (List.range 8).foldl (fun q k => msbCrcBit q (b.getLsbD k)) r) 0xFFFFFFFF

/-- A receive ring in good order: at least one page, `CURR` and `BNRY` in it and apart, every page of it on local RAM
and no two of its bytes on one byte of local RAM (spec/20_memory.md R84 to R87, R95; spec/70_reset_and_hazards.md
R418). -/
structure RingSound (s : State) : Prop where
  bounds : s.pstart < s.pstop
  currIn : s.pstart ≤ s.curr ∧ s.curr < s.pstop
  bnryIn : s.pstart ≤ s.bnry ∧ s.bnry < s.pstop
  apart : s.curr ≠ s.bnry
  decodes : ∀ a : Word, s.pstart ≤ hiByte a → hiByte a < s.pstop → (decodeLocal s.cfg.variant a).isSome
  distinct : ∀ a b : Word, s.pstart ≤ hiByte a → hiByte a < s.pstop → s.pstart ≤ hiByte b → hiByte b < s.pstop →
    decodeLocal s.cfg.variant a = decodeLocal s.cfg.variant b → a = b

/-- A page of the ring that the host has not released: from `BNRY` on and before `CURR`, round the ring
(spec/44_receive.md R301, spec/70_reset_and_hazards.md R418). -/
def UnreadPage (s : State) (p : Byte) : Prop :=
  s.pstart ≤ p ∧ p < s.pstop ∧
    if s.bnry < s.curr then s.bnry ≤ p ∧ p < s.curr else s.bnry ≤ p ∨ p < s.curr

/-- The number of page advances from `page` forward, round the ring, until the page pointer is at `BNRY`; from `BNRY`
itself the whole ring (spec/44_receive.md R300, R301; spec/70_reset_and_hazards.md R418). -/
def pagesToBoundary (s : State) (page : Byte) : Nat :=
  if page < s.bnry then s.bnry.toNat - page.toNat
  else (s.pstop.toNat - page.toNat) + (s.bnry.toNat - s.pstart.toNat)

/-- The pages a frame of `len` bytes takes: padded to 60, header and FCS placeholder added (R304, R309). -/
def pagesOfFrame (len : Nat) : Nat := (max len 60 + 8 + 255) / 256

/-- The local address of byte `k` of the ring counted from the header at `(0, CURR)`, wrapped from `PSTOP` to `PSTART`
(spec/44_receive.md R300, R304). -/
def ringAddr (s : State) (k : Nat) : Word :=
  let a := s.curr.toNat * 256 + k
  if a < s.pstop.toNat * 256 then BitVec.ofNat 16 a
  else BitVec.ofNat 16 (a - s.pstop.toNat * 256 + s.pstart.toNat * 256)

end Sys2Proof.Safety
end

