-- ==== Sys2Proof/Certificates/Slice0/Obligations.lean ====
section
/-! DEFINITION. The statements for the provers. Each docstring names the rules of spec/ it formalises; where a statement
rests on a choice of the model it names the log entry. An equation `exec i s = .next (s with ...)` is the result, the
completion and the whole frame of an instruction at once: every field not named keeps its value. A rule that spec/ marks
`[decision: D<n>]` or `[from general knowledge]` is stated as the rule it is (log 24); a rule that spec/ marks
`[derived]`, and whatever the model chose, is named as such in the docstring. -/

open Sys2Proof Sys2Proof.Machine Sys2Proof.Safety

/-! ### Register accesses -/

/-- R120 to R125, R127 to R132: the plain reads of `CR` (its four words) and of page 0. -/
def Obligations.PlainReadsReturnCommandAndPageZeroRegisters : Prop :=
  ∀ (s : State) (d : Byte),
    (decodeReg 0x00 d = .rdCr ∧ decodeReg 0x10 d = .rdCr ∧ decodeReg 0x20 d = .rdCr ∧ decodeReg 0x30 d = .rdCr ∧
      exec .rdCr s = .next { s with reply := some (.byte s.cr) }) ∧
    (decodeReg 0x01 d = .p0rClda0 ∧ exec .p0rClda0 s = .next { s with reply := some (.byte (s.clda.extractLsb' 0 8)) }) ∧
    (decodeReg 0x02 d = .p0rClda1 ∧ exec .p0rClda1 s = .next { s with reply := some (.byte (s.clda.extractLsb' 8 8)) }) ∧
    (decodeReg 0x03 d = .p0rBnry ∧ exec .p0rBnry s = .next { s with reply := some (.byte s.bnry) }) ∧
    (decodeReg 0x04 d = .p0rTsr ∧ exec .p0rTsr s = .next { s with reply := some (.byte s.tsr) }) ∧
    (decodeReg 0x05 d = .p0rNcr ∧ exec .p0rNcr s = .next { s with reply := some (.byte 0x00) }) ∧
    (decodeReg 0x07 d = .p0rIsr ∧ exec .p0rIsr s = .next { s with reply := some (.byte s.isr) }) ∧
    (decodeReg 0x08 d = .p0rCrda0 ∧ exec .p0rCrda0 s = .next { s with reply := some (.byte (s.crda.extractLsb' 0 8)) }) ∧
    (decodeReg 0x09 d = .p0rCrda1 ∧ exec .p0rCrda1 s = .next { s with reply := some (.byte (s.crda.extractLsb' 8 8)) }) ∧
    (decodeReg 0x0A d = .p0rRsvdA ∧ exec .p0rRsvdA s = .next { s with reply := some (.byte 0xFF) }) ∧
    (decodeReg 0x0B d = .p0rRsvdB ∧ exec .p0rRsvdB s = .next { s with reply := some (.byte 0xFF) }) ∧
    (decodeReg 0x0C d = .p0rRsr ∧ exec .p0rRsr s = .next { s with reply := some (.byte s.rsr) })

/-- R126, R133 to R135: the reads of page 0 that change state. -/
def Obligations.SideEffectingReadsOfFifoAndTallyCounters : Prop :=
  ∀ (s : State) (d : Byte),
    (decodeReg 0x06 d = .p0rFifo ∧ exec .p0rFifo s =
      .next { s with fifoRp := s.fifoRp + 1, reply := some (.byte (s.fifo[s.fifoRp.toNat]'s.fifoRp.isLt)) }) ∧
    (decodeReg 0x0D d = .p0rCntr0 ∧
      exec .p0rCntr0 s = .next { updateIrq { s with cntr0 := 0 } with reply := some (.byte s.cntr0) }) ∧
    (decodeReg 0x0E d = .p0rCntr1 ∧
      exec .p0rCntr1 s = .next { updateIrq { s with cntr1 := 0 } with reply := some (.byte s.cntr1) }) ∧
    (decodeReg 0x0F d = .p0rCntr2 ∧
      exec .p0rCntr2 s = .next { updateIrq { s with cntr2 := 0 } with reply := some (.byte s.cntr2) })

/-- R136 to R141, R143 to R146: the plain writes of page 0; `RSAR` writes reach `CRDA` too. -/
def Obligations.PlainWritesOfPageZeroAndRsarAliasing : Prop :=
  ∀ (s : State) (d : Byte),
    (decodeReg 0x41 d = .p0wPstart d ∧ exec (.p0wPstart d) s = .next { s with pstart := d }) ∧
    (decodeReg 0x42 d = .p0wPstop d ∧ exec (.p0wPstop d) s = .next { s with pstop := d }) ∧
    (decodeReg 0x43 d = .p0wBnry d ∧ exec (.p0wBnry d) s = .next { s with bnry := d }) ∧
    (decodeReg 0x44 d = .p0wTpsr d ∧ exec (.p0wTpsr d) s = .next { s with tpsr := d }) ∧
    (decodeReg 0x45 d = .p0wTbcr0 d ∧ exec (.p0wTbcr0 d) s = .next { s with tbcr := s.tbcr.extractLsb' 8 8 ++ d }) ∧
    (decodeReg 0x46 d = .p0wTbcr1 d ∧ exec (.p0wTbcr1 d) s = .next { s with tbcr := d ++ s.tbcr.extractLsb' 0 8 }) ∧
    (decodeReg 0x48 d = .p0wRsar0 d ∧ exec (.p0wRsar0 d) s =
      .next { s with rsar := s.rsar.extractLsb' 8 8 ++ d, crda := s.crda.extractLsb' 8 8 ++ d }) ∧
    (decodeReg 0x49 d = .p0wRsar1 d ∧ exec (.p0wRsar1 d) s =
      .next { s with rsar := d ++ s.rsar.extractLsb' 0 8, crda := d ++ s.crda.extractLsb' 0 8 }) ∧
    (decodeReg 0x4A d = .p0wRbcr0 d ∧ exec (.p0wRbcr0 d) s = .next { s with rbcr := s.rbcr.extractLsb' 8 8 ++ d }) ∧
    (decodeReg 0x4B d = .p0wRbcr1 d ∧ exec (.p0wRbcr1 d) s = .next { s with rbcr := d ++ s.rbcr.extractLsb' 0 8 })

/-- R147 to R150: the writes under a mask; `IMR` runs the aggregation pass. -/
def Obligations.MaskedConfigurationWrites : Prop :=
  ∀ (s : State) (d : Byte),
    (decodeReg 0x4C d = .p0wRcr d ∧ exec (.p0wRcr d) s = .next { s with rcr := d &&& 0x3F }) ∧
    (decodeReg 0x4D d = .p0wTcr d ∧ exec (.p0wTcr d) s = .next { s with tcr := d &&& 0x1F }) ∧
    (decodeReg 0x4E d = .p0wDcr d ∧ exec (.p0wDcr d) s = .next { s with dcr := d &&& 0x7F }) ∧
    (decodeReg 0x4F d = .p0wImr d ∧ exec (.p0wImr d) s = .next (updateIrq { s with imr := d &&& 0x7F }))

/-- R142: `ISR` is write-one-to-clear in bits 6:0, `RST` is never changed, `CNT` is assigned anew from the counters. -/
def Obligations.InterruptAcknowledgeClearsWrittenBits : Prop :=
  ∀ (s : State) (d : Byte),
    decodeReg 0x47 d = .p0wIsr d ∧
    exec (.p0wIsr d) s = .next (updateIrq { s with isr := s.isr &&& ~~~(d &&& 0x7F) }) ∧
    ∀ t, exec (.p0wIsr d) s = .next t →
      t.isr.getLsbD 7 = s.isr.getLsbD 7 ∧
      t.isr.getLsbD 5 = (s.cntr0.getLsbD 7 && s.cntr1.getLsbD 7 && s.cntr2.getLsbD 7) ∧
      ∀ k, k < 7 → k ≠ 5 → t.isr.getLsbD k = (s.isr.getLsbD k && !d.getLsbD k)

/-- R160 to R166: reads of `PAR0` to `PAR5` and `CURR`. -/
def Obligations.StationAddressAndCurrentPageReads : Prop :=
  ∀ (s : State) (d : Byte),
    (decodeReg 0x11 d = .p1rPar0 ∧ exec .p1rPar0 s = .next { s with reply := some (.byte s.par[0]) }) ∧
    (decodeReg 0x12 d = .p1rPar1 ∧ exec .p1rPar1 s = .next { s with reply := some (.byte s.par[1]) }) ∧
    (decodeReg 0x13 d = .p1rPar2 ∧ exec .p1rPar2 s = .next { s with reply := some (.byte s.par[2]) }) ∧
    (decodeReg 0x14 d = .p1rPar3 ∧ exec .p1rPar3 s = .next { s with reply := some (.byte s.par[3]) }) ∧
    (decodeReg 0x15 d = .p1rPar4 ∧ exec .p1rPar4 s = .next { s with reply := some (.byte s.par[4]) }) ∧
    (decodeReg 0x16 d = .p1rPar5 ∧ exec .p1rPar5 s = .next { s with reply := some (.byte s.par[5]) }) ∧
    (decodeReg 0x17 d = .p1rCurr ∧ exec .p1rCurr s = .next { s with reply := some (.byte s.curr) })

/-- R167 to R174: reads of `MAR0` to `MAR7`. -/
def Obligations.MulticastFilterReads : Prop :=
  ∀ (s : State) (d : Byte),
    (decodeReg 0x18 d = .p1rMar0 ∧ exec .p1rMar0 s = .next { s with reply := some (.byte s.mar[0]) }) ∧
    (decodeReg 0x19 d = .p1rMar1 ∧ exec .p1rMar1 s = .next { s with reply := some (.byte s.mar[1]) }) ∧
    (decodeReg 0x1A d = .p1rMar2 ∧ exec .p1rMar2 s = .next { s with reply := some (.byte s.mar[2]) }) ∧
    (decodeReg 0x1B d = .p1rMar3 ∧ exec .p1rMar3 s = .next { s with reply := some (.byte s.mar[3]) }) ∧
    (decodeReg 0x1C d = .p1rMar4 ∧ exec .p1rMar4 s = .next { s with reply := some (.byte s.mar[4]) }) ∧
    (decodeReg 0x1D d = .p1rMar5 ∧ exec .p1rMar5 s = .next { s with reply := some (.byte s.mar[5]) }) ∧
    (decodeReg 0x1E d = .p1rMar6 ∧ exec .p1rMar6 s = .next { s with reply := some (.byte s.mar[6]) }) ∧
    (decodeReg 0x1F d = .p1rMar7 ∧ exec .p1rMar7 s = .next { s with reply := some (.byte s.mar[7]) })

/-- R175 to R181: writes of `PAR0` to `PAR5` and `CURR`. -/
def Obligations.StationAddressAndCurrentPageWrites : Prop :=
  ∀ (s : State) (d : Byte),
    (decodeReg 0x51 d = .p1wPar0 d ∧ exec (.p1wPar0 d) s = .next { s with par := s.par.set 0 d }) ∧
    (decodeReg 0x52 d = .p1wPar1 d ∧ exec (.p1wPar1 d) s = .next { s with par := s.par.set 1 d }) ∧
    (decodeReg 0x53 d = .p1wPar2 d ∧ exec (.p1wPar2 d) s = .next { s with par := s.par.set 2 d }) ∧
    (decodeReg 0x54 d = .p1wPar3 d ∧ exec (.p1wPar3 d) s = .next { s with par := s.par.set 3 d }) ∧
    (decodeReg 0x55 d = .p1wPar4 d ∧ exec (.p1wPar4 d) s = .next { s with par := s.par.set 4 d }) ∧
    (decodeReg 0x56 d = .p1wPar5 d ∧ exec (.p1wPar5 d) s = .next { s with par := s.par.set 5 d }) ∧
    (decodeReg 0x57 d = .p1wCurr d ∧ exec (.p1wCurr d) s = .next { s with curr := d })

/-- R182 to R189: writes of `MAR0` to `MAR7`. -/
def Obligations.MulticastFilterWrites : Prop :=
  ∀ (s : State) (d : Byte),
    (decodeReg 0x58 d = .p1wMar0 d ∧ exec (.p1wMar0 d) s = .next { s with mar := s.mar.set 0 d }) ∧
    (decodeReg 0x59 d = .p1wMar1 d ∧ exec (.p1wMar1 d) s = .next { s with mar := s.mar.set 1 d }) ∧
    (decodeReg 0x5A d = .p1wMar2 d ∧ exec (.p1wMar2 d) s = .next { s with mar := s.mar.set 2 d }) ∧
    (decodeReg 0x5B d = .p1wMar3 d ∧ exec (.p1wMar3 d) s = .next { s with mar := s.mar.set 3 d }) ∧
    (decodeReg 0x5C d = .p1wMar4 d ∧ exec (.p1wMar4 d) s = .next { s with mar := s.mar.set 4 d }) ∧
    (decodeReg 0x5D d = .p1wMar5 d ∧ exec (.p1wMar5 d) s = .next { s with mar := s.mar.set 5 d }) ∧
    (decodeReg 0x5E d = .p1wMar6 d ∧ exec (.p1wMar6 d) s = .next { s with mar := s.mar.set 6 d }) ∧
    (decodeReg 0x5F d = .p1wMar7 d ∧ exec (.p1wMar7 d) s = .next { s with mar := s.mar.set 7 d })

/-- R190 to R196, R201 to R204: the read-backs of page 2. -/
def Obligations.PageTwoReadBacks : Prop :=
  ∀ (s : State) (d : Byte),
    (decodeReg 0x21 d = .p2rPstart ∧ exec .p2rPstart s = .next { s with reply := some (.byte s.pstart) }) ∧
    (decodeReg 0x22 d = .p2rPstop ∧ exec .p2rPstop s = .next { s with reply := some (.byte s.pstop) }) ∧
    (decodeReg 0x23 d = .p2rRnpp ∧ exec .p2rRnpp s = .next { s with reply := some (.byte s.rnpp) }) ∧
    (decodeReg 0x24 d = .p2rTpsr ∧ exec .p2rTpsr s = .next { s with reply := some (.byte s.tpsr) }) ∧
    (decodeReg 0x25 d = .p2rLnpp ∧ exec .p2rLnpp s = .next { s with reply := some (.byte s.lnpp) }) ∧
    (decodeReg 0x26 d = .p2rAcu ∧ exec .p2rAcu s = .next { s with reply := some (.byte s.acu) }) ∧
    (decodeReg 0x27 d = .p2rAcl ∧ exec .p2rAcl s = .next { s with reply := some (.byte s.acl) }) ∧
    (decodeReg 0x2C d = .p2rRcr ∧ exec .p2rRcr s = .next { s with reply := some (.byte s.rcr) }) ∧
    (decodeReg 0x2D d = .p2rTcr ∧ exec .p2rTcr s = .next { s with reply := some (.byte s.tcr) }) ∧
    (decodeReg 0x2E d = .p2rDcr ∧ exec .p2rDcr s = .next { s with reply := some (.byte s.dcr) }) ∧
    (decodeReg 0x2F d = .p2rImr ∧ exec .p2rImr s = .next { s with reply := some (.byte s.imr) })

/-- R197 to R200, R220: reads of the reserved offsets of page 2 and of every offset of page 3. -/
def Obligations.ReservedAndPageThreeReads : Prop :=
  ∀ (s : State) (d : Byte),
    (decodeReg 0x28 d = .p2rRsvd8 ∧ exec .p2rRsvd8 s = .next { s with reply := some (.byte 0xFF) }) ∧
    (decodeReg 0x29 d = .p2rRsvd9 ∧ exec .p2rRsvd9 s = .next { s with reply := some (.byte 0xFF) }) ∧
    (decodeReg 0x2A d = .p2rRsvdA ∧ exec .p2rRsvdA s = .next { s with reply := some (.byte 0xFF) }) ∧
    (decodeReg 0x2B d = .p2rRsvdB ∧ exec .p2rRsvdB s = .next { s with reply := some (.byte 0xFF) }) ∧
    ∀ p ∈ ([(0x31, .p3r01), (0x32, .p3r02), (0x33, .p3r03), (0x34, .p3r04), (0x35, .p3r05), (0x36, .p3r06),
        (0x37, .p3r07), (0x38, .p3r08), (0x39, .p3r09), (0x3A, .p3r0A), (0x3B, .p3r0B), (0x3C, .p3r0C),
        (0x3D, .p3r0D), (0x3E, .p3r0E), (0x3F, .p3r0F)] : List (BitVec 7 × Instr)),
      decodeReg p.1 d = p.2 ∧ exec p.2 s = .next { s with reply := some (.byte 0x00) }

/-- R205 to R207, R209 to R211: the writes of page 2 that store. -/
def Obligations.PageTwoStoringWrites : Prop :=
  ∀ (s : State) (d : Byte),
    (decodeReg 0x61 d = .p2wClda0 d ∧ exec (.p2wClda0 d) s = .next { s with clda := s.clda.extractLsb' 8 8 ++ d }) ∧
    (decodeReg 0x62 d = .p2wClda1 d ∧ exec (.p2wClda1 d) s = .next { s with clda := d ++ s.clda.extractLsb' 0 8 }) ∧
    (decodeReg 0x63 d = .p2wRnpp d ∧ exec (.p2wRnpp d) s = .next { s with rnpp := d }) ∧
    (decodeReg 0x65 d = .p2wLnpp d ∧ exec (.p2wLnpp d) s = .next { s with lnpp := d }) ∧
    (decodeReg 0x66 d = .p2wAcu d ∧ exec (.p2wAcu d) s = .next { s with acu := d }) ∧
    (decodeReg 0x67 d = .p2wAcl d ∧ exec (.p2wAcl d) s = .next { s with acl := d })

/-- R208, R212 to R219, R221: writes of reserved offsets of page 2 and of page 3 change nothing. -/
def Obligations.ReservedAndPageThreeWritesDiscarded : Prop :=
  ∀ (s : State) (d : Byte),
    ∀ p ∈ ([(0x64, .p2wRsvd4 d), (0x68, .p2wRsvd8 d), (0x69, .p2wRsvd9 d), (0x6A, .p2wRsvdA d), (0x6B, .p2wRsvdB d),
        (0x6C, .p2wRsvdC d), (0x6D, .p2wRsvdD d), (0x6E, .p2wRsvdE d), (0x6F, .p2wRsvdF d),
        (0x71, .p3w01 d), (0x72, .p3w02 d), (0x73, .p3w03 d), (0x74, .p3w04 d), (0x75, .p3w05 d), (0x76, .p3w06 d),
        (0x77, .p3w07 d), (0x78, .p3w08 d), (0x79, .p3w09 d), (0x7A, .p3w0A d), (0x7B, .p3w0B d), (0x7C, .p3w0C d),
        (0x7D, .p3w0D d), (0x7E, .p3w0E d), (0x7F, .p3w0F d)] : List (BitVec 7 × Instr)),
      decodeReg p.1 d = p.2 ∧ exec p.2 s = .next s

/-! ### The command register -/

/-- The rows `CR.STP`, `CR.STA` alone, the other bit keeping its value: the model's reading of a command that always
comes with its pair (DEDUCED, log 3), from R232 and R233. -/
def Obligations.StopAndStartCommandsAlone : Prop :=
  ∀ (s : State) (b : Bool),
    exec (.crStp b) s = .next { s with
      cr := (s.cr &&& 0xFE) ||| (if b then 0x01 else 0x00)
      isr := if b = true ∧ s.cr.getLsbD 0 = false then s.isr ||| 0x80
        else if b = false ∧ s.cr.getLsbD 1 = true ∧ s.cr.getLsbD 0 = true then s.isr &&& 0x7F else s.isr } ∧
    exec (.crSta b) s = .next { s with
      cr := (s.cr &&& 0xFD) ||| (if b then 0x02 else 0x00)
      isr := if s.cr.getLsbD 0 = false ∧ b = true ∧ s.cr.getLsbD 1 = false then s.isr &&& 0x7F else s.isr }

/-- R232, R233: phase 1 of a `CR` write. -/
def Obligations.StopStartPhaseStoresBitsAndResetFlag : Prop :=
  ∀ (s : State) (stp sta : Bool),
    startStop s stp sta = { s with
      cr := (s.cr &&& 0xFC) ||| (if sta then 0x02 else 0x00) ||| (if stp then 0x01 else 0x00)
      isr := if stp = true ∧ s.cr.getLsbD 0 = false then s.isr ||| 0x80
        else if stp = false ∧ sta = true ∧ (s.cr.getLsbD 0 = true ∨ s.cr.getLsbD 1 = false) then s.isr &&& 0x7F
        else s.isr }

/-- R234: the transmit trigger is an edge of `TXP`; a written 0 does nothing. -/
def Obligations.TransmitTriggerIsEdgeOfTxp : Prop :=
  ∀ s : State,
    transmitTrigger s false = s ∧
    (s.cr.getLsbD 2 = true → exec .crTxp s = .next s) ∧
    (s.cr.getLsbD 2 = false → exec .crTxp s = .next (txEngine { s with cr := s.cr ||| 0x04 }))

/-- R235, R237 to R239, R241: invalid, Abort, Read and Write store their field, 0 as Abort; `PS` is always stored. -/
def Obligations.RemoteCommandsAndPageSelectStoreTheirField : Prop :=
  ∀ (s : State) (rd : BitVec 3) (ps : BitVec 2),
    exec .crRdInvalid s = .next { s with cr := (s.cr &&& 0xC7) ||| 0x20 } ∧
    exec .crRdRead s = .next { s with cr := (s.cr &&& 0xC7) ||| 0x08 } ∧
    exec .crRdWrite s = .next { s with cr := (s.cr &&& 0xC7) ||| 0x10 } ∧
    (rd.getLsbD 2 = true → exec (.crRdAbort rd) s = .next { s with cr := (s.cr &&& 0xC7) ||| (rd.setWidth 8 <<< 3) }) ∧
    exec (.crPs ps) s = .next { s with cr := (s.cr &&& 0x3F) ||| (ps.setWidth 8 <<< 6) }

/-- R236, R240: a command equal to the stored one has no effect; Send Packet sets up from the header at `BNRY`. -/
def Obligations.SendPacketLoadsHeaderCount : Prop :=
  ∀ (s : State),
    (∀ rd : BitVec 3, rd ≠ 0 → s.cr.extractLsb' 3 3 = rd → remoteCommand s rd = s) ∧
    (s.cr.extractLsb' 3 3 = 4#3 → remoteCommand s 0 = s) ∧
    (s.cr.extractLsb' 3 3 = 3#3 → exec .crRdSend s = .next s) ∧
    (s.cr.extractLsb' 3 3 ≠ 3#3 → exec .crRdSend s = .next { s with
      crda := s.bnry ++ 0x00#8
      rbcr := localRead s (s.bnry ++ 0x03#8) ++ localRead s (s.bnry ++ 0x02#8)
      cr := (s.cr &&& 0xC7) ||| 0x18 })

/-- R230, R231: the four phases of a `CR` write, in order, on the fields of the byte. -/
def Obligations.CommandWriteRunsFourPhasesInOrder : Prop :=
  ∀ (s : State) (d : Byte),
    (decodeReg 0x40 d = .wrCr d ∧ decodeReg 0x50 d = .wrCr d ∧ decodeReg 0x60 d = .wrCr d ∧ decodeReg 0x70 d = .wrCr d) ∧
    exec (.wrCr d) s = .next (
      let s1 := startStop s (d.getLsbD 0) (d.getLsbD 1)
      let s2 := transmitTrigger s1 (d.getLsbD 2)
      let s3 := remoteCommand s2 (d.extractLsb' 3 3)
      selectPage s3 (d.extractLsb' 6 2))

/-- The value of `CR` after a write (R242, which the spec marks as derived from R232, R234, R236, R241). -/
def Obligations.CommandRegisterValueAfterWrite : Prop :=
  ∀ (s : State) (d : Byte), TransmitterIdle s →
    ∃ t, exec (.wrCr d) s = .next t ∧
      t.cr = if d &&& 0x38 = 0 then (d &&& 0xC3) ||| 0x20 else d &&& 0xFB

/-- A `CR` write is the commands of its byte run one after another: that every row of the byte is triggered is R105's,
that the rows `CR.STA` and `CR.STP` may be run one before the other is the model's reading (DEDUCED, log 3). -/
def Obligations.CommandWriteIsItsCommandsInOrder : Prop :=
  ∀ (s : State) (d : Byte), exec (.wrCr d) s = runAll (decodeCrval d) s

/-- The frame of a `CR` write that does not transmit (R230, R233, R236, R240): `CR` and `ISR.RST` only, and `CRDA`,
`RBCR` for a Send Packet command that is a change. -/
def Obligations.CommandWriteWithoutTransmitFrame : Prop :=
  ∀ (s t : State) (d : Byte), d.getLsbD 2 = false → exec (.wrCr d) s = .next t →
    t = { s with cr := t.cr, isr := t.isr, crda := t.crda, rbcr := t.rbcr } ∧
    t.isr &&& 0x7F = s.isr &&& 0x7F ∧
    ((d &&& 0x38 ≠ 0x18 ∨ s.cr &&& 0x38 = 0x18) → t.crda = s.crda ∧ t.rbcr = s.rbcr)

/-! ### The data port, remote DMA and the reset port -/

/-- R254 with R84 to R88: the local-address decode of each variant; a local read is the byte of local RAM that the address
decodes to, or the parameter `UNDECODED_READ`, which the model takes as one byte (log 10); and the transferring reads. -/
def Obligations.DataPortReadsTransfer : Prop :=
  ∀ s : State,
    (∀ a : Word,
      let m := (a &&& 0x3FFF).toNat
      let n := (a &&& 0x7FFF).toNat
      (0x2000 ≤ m → decodeLocal .ne1000 a = some (m - 0x2000) ∧ decodeLocal .el3c503 a = some (m - 0x2000)) ∧
      (m < 0x2000 → decodeLocal .ne1000 a = none ∧ decodeLocal .el3c503 a = none) ∧
      (0x4000 ≤ n → decodeLocal .ne2000 a = some (n - 0x4000)) ∧
      (n < 0x4000 → decodeLocal .ne2000 a = none) ∧
      decodeLocal .wd8003 a = some m ∧ decodeLocal .wd8013 a = some m ∧
      (∀ o, decodeLocal s.cfg.variant a = some o → localRead s a = Memory.read s.ram o) ∧
      (decodeLocal s.cfg.variant a = none → localRead s a = s.cfg.undecodedRead)) ∧
    ((s.cr.extractLsb' 3 3 = 1#3 ∨ s.cr.extractLsb' 3 3 = 3#3) →
      (s.dcr.getLsbD 0 = false →
        exec .dataRd8 s = .next { dmaStep s with reply := some (.byte (localRead s s.crda)) }) ∧
      (s.dcr.getLsbD 0 = true →
        exec .dataRd16 s =
          .next { dmaStep s with reply := some (.word (localRead s (s.crda + 1) ++ localRead s s.crda)) }))

/-- R255 with R89: the transferring writes, and the frame of local RAM: only the bytes at `CRDA` (and `CRDA + 1` for 16
bits) that decode are stored to. -/
def Obligations.DataPortWritesTransferAndStoreOnlyTheirBytes : Prop :=
  ∀ s : State, s.cr.extractLsb' 3 3 = 2#3 → RamCanonical s →
    (s.dcr.getLsbD 0 = false → ∀ v : Byte,
      exec (.dataWr8 v) s = .next (dmaStep (localWrite s s.crda v)) ∧
      (∀ o, decodeLocal s.cfg.variant s.crda = some o → Memory.read (dmaStep (localWrite s s.crda v)).ram o = v) ∧
      (∀ o, decodeLocal s.cfg.variant s.crda ≠ some o →
        Memory.read (dmaStep (localWrite s s.crda v)).ram o = Memory.read s.ram o)) ∧
    (s.dcr.getLsbD 0 = true → ∀ v : Word,
      ∃ t, exec (.dataWr16 v) s = .next t ∧
      t = dmaStep (localWrite (localWrite s s.crda (v.extractLsb' 0 8)) (s.crda + 1) (v.extractLsb' 8 8)) ∧
      (∀ o, decodeLocal s.cfg.variant s.crda = some o → Memory.read t.ram o = v.extractLsb' 0 8) ∧
      (∀ o, decodeLocal s.cfg.variant (s.crda + 1) = some o → Memory.read t.ram o = v.extractLsb' 8 8) ∧
      (∀ o, decodeLocal s.cfg.variant s.crda ≠ some o → decodeLocal s.cfg.variant (s.crda + 1) ≠ some o →
        Memory.read t.ram o = Memory.read s.ram o))

/-- R259: an access that the command does not enable changes nothing; a read returns all ones; both widths. -/
def Obligations.DisabledDataPortMovesNothing : Prop :=
  ∀ (s : State),
    (s.cr.extractLsb' 3 3 ≠ 1#3 → s.cr.extractLsb' 3 3 ≠ 3#3 →
      exec .dataRd8 s = .next { s with reply := some (.byte 0xFF) } ∧
      exec .dataRd16 s = .next { s with reply := some (.word 0xFFFF) }) ∧
    (s.cr.extractLsb' 3 3 ≠ 2#3 →
      ∀ (v : Byte) (w : Word), exec (.dataWr8 v) s = .next s ∧ exec (.dataWr16 w) s = .next s)

/-- R253: exactly the transferring accesses of the other width are refused. -/
def Obligations.WrongWidthTransfersAreRefused : Prop :=
  ∀ (s : State) (v : Byte) (w : Word),
    (exec .dataRd8 s = .refused .dataPortWidth ↔
      (s.cr.extractLsb' 3 3 = 1#3 ∨ s.cr.extractLsb' 3 3 = 3#3) ∧ s.dcr.getLsbD 0 = true) ∧
    (exec .dataRd16 s = .refused .dataPortWidth ↔
      (s.cr.extractLsb' 3 3 = 1#3 ∨ s.cr.extractLsb' 3 3 = 3#3) ∧ s.dcr.getLsbD 0 = false) ∧
    (exec (.dataWr8 v) s = .refused .dataPortWidth ↔ s.cr.extractLsb' 3 3 = 2#3 ∧ s.dcr.getLsbD 0 = true) ∧
    (exec (.dataWr16 w) s = .refused .dataPortWidth ↔ s.cr.extractLsb' 3 3 = 2#3 ∧ s.dcr.getLsbD 0 = false)

/-- R256 to R258: the bookkeeping of one unit: advance and wrap, the count, completion. -/
def Obligations.DmaStepAdvancesCountsAndCompletes : Prop :=
  ∀ s : State,
    let next := s.crda + (if s.dcr.getLsbD 0 then 2#16 else 1#16)
    let crda := if next.extractLsb' 8 8 = s.pstop ∧ s.pstart ≠ s.pstop then s.pstart ++ 0x00#8 else next
    let one := s.rbcr - 1
    let rbcr := if s.dcr.getLsbD 0 = true ∧ one ≠ 0 then one - 1 else one
    dmaStep s =
      if rbcr = 0 then updateIrq { s with crda := crda, rbcr := 0, isr := s.isr ||| 0x40, cr := s.cr &&& 0xC7 }
      else { s with crda := crda, rbcr := rbcr }

/-- R262, R411: a write of the reset port is a soft reset, exactly the listed fields and then the pass. -/
def Obligations.ResetPortWriteIsSoftReset : Prop :=
  ∀ (s : State) (v : Word),
    exec (.resetWr v) s = .next (updateIrq { s with
      cr := 0x21, isr := s.isr ||| 0x80, imr := 0x00, dcr := s.dcr &&& 0xFB, tcr := s.tcr &&& 0xF9,
      fifo := Vector.replicate 16 0, fifoRp := 0, fifoWp := 0 })

/-- R263: a read of the reset port is the same soft reset, and returns some byte, whatever it is (the model counts the
free value it draws, log 7). -/
def Obligations.ResetPortReadResetsAndReturnsSomeByte : Prop :=
  ∀ s : State, ∃ b : Byte,
    exec .resetRd s = .next { updateIrq { s with
      cr := 0x21, isr := s.isr ||| 0x80, imr := 0x00, dcr := s.dcr &&& 0xFB, tcr := s.tcr &&& 0xF9,
      fifo := Vector.replicate 16 0, fifoRp := 0, fifoWp := 0 } with
      freeCount := s.freeCount + 1, reply := some (.byte b) }

/-- R265: a count of zero is 65536 bytes: for the whole run of data-port reads `RBCR` counts down one unit at an access,
and only the last one completes. An odd count in word mode takes one access more (R257(b)). -/
def Obligations.RemoteCountRunsDownAndZeroMeansWhole : Prop :=
  ∀ s : State, s.cr.extractLsb' 3 3 = 1#3 →
    (s.dcr.getLsbD 0 = false →
      let n := if s.rbcr = 0 then 65536 else s.rbcr.toNat
      (∀ k, k < n → ∃ t, runAll (List.replicate k .dataRd8) s = .next t ∧
        t.rbcr = s.rbcr - BitVec.ofNat 16 k ∧ t.cr = s.cr ∧ t.isr = s.isr) ∧
      ∃ t, runAll (List.replicate n .dataRd8) s = .next t ∧
        t.rbcr = 0 ∧ t.cr = s.cr &&& 0xC7 ∧ t.isr.getLsbD 6 = true) ∧
    (s.dcr.getLsbD 0 = true →
      let n := if s.rbcr = 0 then 32768 else (s.rbcr.toNat + 1) / 2
      (∀ k, k < n → ∃ t, runAll (List.replicate k .dataRd16) s = .next t ∧
        t.rbcr = s.rbcr - BitVec.ofNat 16 (2 * k) ∧ t.cr = s.cr ∧ t.isr = s.isr) ∧
      ∃ t, runAll (List.replicate n .dataRd16) s = .next t ∧
        t.rbcr = 0 ∧ t.cr = s.cr &&& 0xC7 ∧ t.isr.getLsbD 6 = true)

/-- R264, the round trip in byte mode: what remote writes stored at `A` remote reads return, for 1 to 16384 bytes whose
addresses all decode and of which none after the first lies in page `PSTOP`. (16384, not R264's 65535: on a WD board,
where every address decodes, a longer run meets its own first bytes again.) -/
def Obligations.RemoteDmaRoundTripReturnsTheBytes : Prop :=
  ∀ (s : State) (a : Word) (bs : List Byte),
    s.dcr.getLsbD 0 = false → RamCanonical s → 1 ≤ bs.length → bs.length ≤ 16384 →
    (∀ i, i < bs.length → (decodeLocal s.cfg.variant (a + BitVec.ofNat 16 i)).isSome) →
    (∀ i, 0 < i → i < bs.length → hiByte (a + BitVec.ofNat 16 i) ≠ s.pstop) →
    ∀ (i : Nat) (h : i < bs.length),
      ∃ t, runAll (setupTransfer a (BitVec.ofNat 16 bs.length) ++ [.crRdWrite] ++ bs.map .dataWr8 ++
          setupTransfer a (BitVec.ofNat 16 bs.length) ++ [.crRdRead] ++ List.replicate (i + 1) .dataRd8) s = .next t ∧
        t.reply = some (.byte bs[i])

/-! ### Encoding -/

/-- R103, R105, R106: decoding what a well-formed instruction encodes to gives it back, with every operand; a command is
among those its byte carries; and the byte form of an access decodes to it (the byte form is the model's, log 2). -/
def Obligations.DecodeInvertsEncode : Prop :=
  ∀ i : Instr, WellFormed i →
    i ∈ decodeWord (encode i) ∧
    ((encode i).fmt = i.row.fmt) ∧
    (i.row.fmt ≠ 1 → decodeWord (encode i) = [i] ∧ decodeBytes (encode i).toBytes = .ok i)

/-- A `REG` word decodes to the instruction of the one opcode-table row that it matches (R103, which the spec marks as
derived from R101 and R102). -/
def Obligations.RegisterWordMatchesExactlyOneRow : Prop :=
  ∀ (w : BitVec 7) (d : Byte),
    ((decodeReg w d).row.fmt = 0 ∧ w.setWidth 8 &&& (decodeReg w d).row.mask = (decodeReg w d).row.pat) ∧
    ∀ j : Instr, j.row.fmt = 0 → w.setWidth 8 &&& j.row.mask = j.row.pat → j.row = (decodeReg w d).row

/-- R105: the commands that a `CR` byte carries are exactly the rows it matches. -/
def Obligations.CommandByteCarriesExactlyItsRows : Prop :=
  ∀ (d : Byte) (i : Instr),
    i ∈ decodeCrval d ↔
      i = .crSta (d.getLsbD 1) ∨ i = .crStp (d.getLsbD 0) ∨ i = .crPs (d.extractLsb' 6 2) ∨
      (d &&& 0x04 = 0x04 ∧ i = .crTxp) ∨
      (d &&& 0x38 = 0x00 ∧ i = .crRdInvalid) ∨ (d &&& 0x38 = 0x08 ∧ i = .crRdRead) ∨
      (d &&& 0x38 = 0x10 ∧ i = .crRdWrite) ∨ (d &&& 0x38 = 0x18 ∧ i = .crRdSend) ∨
      (d &&& 0x20 = 0x20 ∧ i = .crRdAbort (d.extractLsb' 3 3))

/-- Words written out from the register map R104, the command values R105 and the port words R106. The order in which
the commands of a `CR` byte stand in the list, `STA` before `STP`, is the model's (DEDUCED, log 3). -/
def Obligations.SampleWordsDecodeAsTabulated : Prop :=
  decodeReg 0b0000111 0x00 = .p0rIsr ∧ decodeReg 0b1001111 0x3F = .p0wImr 0x3F ∧
  decodeReg 0b1010111 0x46 = .p1wCurr 0x46 ∧ decodeReg 0b0011111 0x00 = .p1rMar7 ∧
  decodeReg 0b0101101 0x00 = .p2rTcr ∧ decodeReg 0b1110001 0x55 = .p3w01 0x55 ∧ decodeReg 0b1110000 0x22 = .wrCr 0x22 ∧
  decodeCrval 0x26 = [.crSta true, .crStp false, .crTxp, .crRdAbort 4, .crPs 0] ∧
  decodeCrval 0x1A = [.crSta true, .crStp false, .crRdSend, .crPs 0] ∧
  decodePort 0b000 0 = .dataRd8 ∧ decodePort 0b101 0x2211 = .dataWr16 0x2211 ∧ decodePort 0b111 0 = .resetWr 0

/-! ### The step -/

/-- R12, R90, R101, R106, R361 to R363, R365: a step takes the oldest coming access (the queue is the model's, log 1) and
runs the instruction it decodes to under the page in force; the port tables of the five adapters. The model's choices:
accesses on the abstract ports `DATA` and `RESET` are taken on every variant (log 32); a 16-bit access within a reset
group is one access on the NE1000 too, a wrapper port is refused, a port outside the window reaches nothing (log 22); a
16-bit access that the spec does not give as one operation becomes 8-bit accesses in some way, each of them then routed
by itself (log 35). -/
def Obligations.StepRunsTheDecodedAccess : Prop :=
  ∀ (s : State) (rest : List Input) (w wide : Bool) (a : Nibble) (d : Byte) (v : Word) (port : Nat),
    let u : State := { s with inputs := rest, reply := none }
    let dest := route s.cfg (s.ealo || s.eahi)
    (s.inputs = .access (.reg w a d) :: rest →
      step s = exec (decodeReg (BitVec.ofBool w ++ s.cr.extractLsb' 6 2 ++ a) d) u) ∧
    (s.inputs = .access (.data w wide v) :: rest →
      step s = exec (decodePort (BitVec.ofBool w ++ 0#1 ++ BitVec.ofBool wide) v) u) ∧
    (s.inputs = .access (.reset w wide v) :: rest →
      step s = exec (decodePort (BitVec.ofBool w ++ 1#1 ++ BitVec.ofBool wide) v) u) ∧
    (s.inputs = .access (.io w false port v) :: rest →
      (dest port = .reg a → step s = exec (decodeReg (BitVec.ofBool w ++ s.cr.extractLsb' 6 2 ++ a) (v.setWidth 8)) u) ∧
      (dest port = .data → step s = exec (decodePort (BitVec.ofBool w ++ 0#2) v) u) ∧
      (dest port = .reset → step s = exec (decodePort (BitVec.ofBool w ++ 2#2) v) u) ∧
      (dest port = .wrapper → step s = .refused .wrapperRegister) ∧
      (dest port = .absent → step s = .next u)) ∧
    (s.inputs = .access (.io w true port v) :: rest →
      (s.cfg.variant = .ne2000 → dest port = .data → dest (port + 1) = .data →
        step s = exec (decodePort (BitVec.ofBool w ++ 1#2) v) u) ∧
      (dest port = .reset → dest (port + 1) = .reset → step s = exec (decodePort (BitVec.ofBool w ++ 3#2) v) u) ∧
      (dest port = .wrapper → dest (port + 1) = .wrapper → step s = .refused .wrapperRegister) ∧
      (dest port = .absent → dest (port + 1) = .absent → step s = .next u) ∧
      ((dest port = .reg a ∨ dest (port + 1) = .reg a ∨
          (s.cfg.variant = .ne1000 ∧ (dest port = .data ∨ dest (port + 1) = .data)) ∨
          (dest port = .data ∧ dest (port + 1) = .reset)) →
        let low : Input := .access (.io w false port (v &&& 0x00FF))
        let high : Input := .access (.io w false (port + 1) (v >>> 8))
        ∃ pieces ∈ [[low, high], [high, low], [low], [high], []],
          step s = .next { u with inputs := pieces ++ rest, freeCount := s.freeCount + 1 })) ∧
    (∀ (p : Params) (mapped : Bool),
      (∀ k, k < p.ioBase → route p mapped k = .absent) ∧
      (p.variant = .ne1000 →
        (∀ k, k < 0x10 → route p mapped (p.ioBase + k) = .reg (BitVec.ofNat 4 k)) ∧
        (∀ k, 0x10 ≤ k → k < 0x14 → route p mapped (p.ioBase + k) = .data) ∧
        (∀ k, 0x14 ≤ k → k < 0x18 → route p mapped (p.ioBase + k) = .reset) ∧
        (∀ k, 0x18 ≤ k → k < 0x1C → route p mapped (p.ioBase + k) = .data) ∧
        (∀ k, 0x1C ≤ k → k < 0x20 → route p mapped (p.ioBase + k) = .reset) ∧
        (∀ k, 0x20 ≤ k → route p mapped (p.ioBase + k) = .absent)) ∧
      (p.variant = .ne2000 →
        (∀ k, k < 0x10 → route p mapped (p.ioBase + k) = .reg (BitVec.ofNat 4 k)) ∧
        (∀ k, 0x10 ≤ k → k < 0x18 → route p mapped (p.ioBase + k) = .data) ∧
        (∀ k, 0x18 ≤ k → k < 0x20 → route p mapped (p.ioBase + k) = .reset) ∧
        (∀ k, 0x20 ≤ k → route p mapped (p.ioBase + k) = .absent)) ∧
      ((p.variant = .wd8003 ∨ p.variant = .wd8013) →
        (∀ k, k < 0x10 → route p mapped (p.ioBase + k) = .wrapper) ∧
        (∀ k, k < 0x10 → route p mapped (p.ioBase + 0x10 + k) = .reg (BitVec.ofNat 4 k)) ∧
        (∀ k, 0x20 ≤ k → route p mapped (p.ioBase + k) = .absent)) ∧
      (p.variant = .el3c503 →
        (∀ k, k < 0x10 → route p false (p.ioBase + k) = .reg (BitVec.ofNat 4 k) ∧
          route p true (p.ioBase + k) = .prom (BitVec.ofNat 4 k)) ∧
        (∀ k, 0x400 ≤ k → k < 0x410 → route p mapped (p.ioBase + k) = .wrapper) ∧
        (∀ k, (0x10 ≤ k ∧ k < 0x400) ∨ 0x410 ≤ k → route p mapped (p.ioBase + k) = .absent)))

/-- The access of an encoded instruction, placed as the next operation under the page of its word, is run as that
instruction: fetch, page decode and encoding agree (R101 to R103, R106; the input queue is the model's, log 1). -/
def Obligations.StepRunsAnEncodedInstruction : Prop :=
  ∀ (s : State) (i : Instr), WellFormed i → i.row.fmt ≠ 1 →
    step (placeWord s (encode i)) = exec i { placeWord s (encode i) with inputs := s.inputs, reply := none }

/-- R13, R48, R363, R365, R392: with nothing waiting the core waits; an event has its effect in one step (the queue is
the model's, log 1). The WD window reaches local RAM while `MEME` is 1, and nothing while it is 0 or outside
`SHMEM_SIZE` (log 31). A 3C503 read returns the PROM byte that `ealo` or `eahi` alone selects (which half each selects is
general knowledge in the spec, log 8; the order of the two bytes of a 16-bit read is log 35); a write there is dropped at
any width. `MEME`, `ealo`, `eahi` take their values by events of the model, on the boards that have them (log 21). The
three Gate Array levels are given at once, and the pass runs even when none of them changes (DEDUCED, log 30); answers of
the network go into the model's queue `netAnswers` (DESIGN CHOICE, log 6). -/
def Obligations.StepWaitsAndTakesEvents : Prop :=
  ∀ (s : State) (rest : List Input) (e : Event),
    (s.inputs = [] → step s = .next s) ∧
    (s.inputs = .event e :: rest → step s = .next (applyEvent e { s with inputs := rest, reply := none })) ∧
    (∀ frame, applyEvent (.netRx frame) s = netRx s frame) ∧
    applyEvent .hardReset s = hardReset s ∧
    (∀ b, applyEvent (.linkUp b) s = { s with linkUp := b }) ∧
    (∀ b, applyEvent (.run b) s = { s with running := b }) ∧
    (∀ r, applyEvent (.netAnswer r) s = { s with netAnswers := s.netAnswers ++ [r] }) ∧
    (∀ nim tcm dtc,
      (s.cfg.variant = .el3c503 →
        applyEvent (.gateArray nim tcm dtc) s = updateIrq { s with gaNim := nim, gaTcm := tcm, gaDtc := dtc }) ∧
      (s.cfg.variant ≠ .el3c503 → applyEvent (.gateArray nim tcm dtc) s = s)) ∧
    (∀ ealo eahi,
      (s.cfg.variant = .el3c503 → applyEvent (.promMap ealo eahi) s = { s with ealo := ealo, eahi := eahi }) ∧
      (s.cfg.variant ≠ .el3c503 → applyEvent (.promMap ealo eahi) s = s)) ∧
    (∀ b,
      ((s.cfg.variant = .wd8003 ∨ s.cfg.variant = .wd8013) → applyEvent (.memEnable b) s = { s with meme := b }) ∧
      (s.cfg.variant ≠ .wd8003 → s.cfg.variant ≠ .wd8013 → applyEvent (.memEnable b) s = s)) ∧
    (∀ (o : Nat) (b : Byte), (s.cfg.variant = .wd8003 ∨ s.cfg.variant = .wd8013) → s.meme = true →
      o < s.cfg.shmemSize →
      applyEvent (.shmemRead (s.cfg.shmemBase + o)) s =
        { s with reply := some (.byte (Memory.read s.ram (o % 16384))) } ∧
      applyEvent (.shmemWrite (s.cfg.shmemBase + o) b) s = { s with ram := Memory.write s.ram (o % 16384) b }) ∧
    (∀ (addr : Nat) (b : Byte),
      (s.meme = false ∨ addr < s.cfg.shmemBase ∨ s.cfg.shmemBase + s.cfg.shmemSize ≤ addr ∨
        (s.cfg.variant ≠ .wd8003 ∧ s.cfg.variant ≠ .wd8013)) →
      applyEvent (.shmemRead addr) s = s ∧ applyEvent (.shmemWrite addr b) s = s) ∧
    (∀ (port : Nat) (v : Word) (a : Nibble),
      let prom (k : Nat) : Byte := s.cfg.prom.toList.getD (if s.eahi then 16 + k else k) 0
      route s.cfg (s.ealo || s.eahi) port = .prom a →
      (s.inputs = .access (.io false false port v) :: rest → s.ealo ≠ s.eahi →
        step s = .next { s with inputs := rest, reply := some (.byte (prom a.toNat)) }) ∧
      (s.inputs = .access (.io false true port v) :: rest → s.ealo ≠ s.eahi → a ≠ 15 →
        step s = .next { s with inputs := rest, reply := some (.word (prom (a.toNat + 1) ++ prom a.toNat)) }) ∧
      (∀ wide, s.inputs = .access (.io true wide port v) :: rest →
        step s = .next { s with inputs := rest, reply := none }))

/-- R380 with R253: every instruction completes in every state, but for a transferring data-port access of the wrong
width; there is no fault. -/
def Obligations.OnlyWrongWidthStopsAnInstruction : Prop :=
  ∀ (i : Instr) (s : State),
    (∃ t, exec i s = .next t) ∨
    (exec i s = .refused .dataPortWidth ∧
      (i = .dataRd8 ∨ i = .dataRd16 ∨ (∃ v, i = .dataWr8 v) ∨ ∃ v, i = .dataWr16 v))

/-! ### Interrupts, reset, invariants -/

/-- R385, R386, R392: the aggregation pass. -/
def Obligations.AggregationPassAssignsCntAndDrivesLine : Prop :=
  ∀ s : State,
    let isr := (s.isr &&& 0xDF) |||
      (if s.cntr0.getLsbD 7 && s.cntr1.getLsbD 7 && s.cntr2.getLsbD 7 then 0x20 else 0x00)
    let core := decide (isr &&& s.imr ≠ 0)
    let level := if s.cfg.variant = .el3c503 then (core && !s.gaNim) || (s.gaDtc && !s.gaTcm) else core
    updateIrq s = { s with
      isr := isr, irqLevel := level
      irqCalls := if level ≠ s.irqLevel then ⟨s.cfg.irqNum, level⟩ :: s.irqCalls else s.irqCalls }

/-- R53, R364, R410: the value of every element after a hard reset, from any state; and `State.reset` is such a state. The
level is 0 but for the Gate Array term of R392, whose inputs no reset drives. `MEME` is 0 (R364); `ealo` and `eahi` keep
their values, which the spec does not say (log 21). -/
def Obligations.HardResetGivesTheTabulatedState : Prop :=
  (∀ s : State,
    let t := hardReset s
    t.cr = 0x21 ∧ t.isr = 0x80 ∧ t.imr = 0 ∧ t.dcr = 0 ∧ t.tcr = 0 ∧ t.rcr = 0 ∧ t.rsr = 0 ∧ t.tsr = 0 ∧
    t.tpsr = 0 ∧ t.pstart = 0 ∧ t.pstop = 0 ∧ t.bnry = 0 ∧ t.curr = 0 ∧
    t.tbcr = 0 ∧ t.clda = 0 ∧ t.rsar = 0 ∧ t.rbcr = 0 ∧ t.crda = 0 ∧
    t.par = Vector.replicate 6 0 ∧ t.mar = Vector.replicate 8 0 ∧ t.cntr0 = 0 ∧ t.cntr1 = 0 ∧ t.cntr2 = 0 ∧
    t.fifo = Vector.replicate 16 0 ∧ t.fifoRp = 0 ∧ t.fifoWp = 0 ∧
    t.rnpp = 0 ∧ t.lnpp = 0 ∧ t.acu = 0 ∧ t.acl = 0 ∧ (∀ o, Memory.read t.ram o = 0) ∧
    t.irqLevel = (decide (s.cfg.variant = .el3c503) && s.gaDtc && !s.gaTcm) ∧
    t.meme = false ∧ t.ealo = s.ealo ∧ t.eahi = s.eahi) ∧
  hardReset State.reset = { State.reset with irqCalls := [⟨State.reset.cfg.irqNum, false⟩] }

/-- The machine starts in a legal state (R53). -/
def Obligations.ResetStateIsLegal : Prop := Legal State.reset

/-- Every step keeps a legal state legal: reserved bits read 0 (R147 to R150), no transmission is pending (R242), the
counters and `ISR.CNT` stay as R43, R296 and R386 say, `RSR` and `TSR` hold only the values R302, R337 to R339 give, a
stopped core shows `ISR.RST` (R413), the line has the level of R387, local RAM stays canonical. -/
def Obligations.EveryStepKeepsLegality : Prop :=
  ∀ s t : State, Legal s → step s = .next t → Legal t

/-- R7: no step changes the configuration. -/
def Obligations.ConfigurationIsNeverChanged : Prop :=
  ∀ s t : State, step s = .next t → t.cfg = s.cfg

/-- R382, row `RST`: only a start command clears `ISR.RST`. -/
def Obligations.OnlyStartClearsResetFlag : Prop :=
  ∀ s t : State, step s = .next t → s.isr.getLsbD 7 = true → t.isr.getLsbD 7 = false →
    ∃ d, fetch s = .instr (.wrCr d) ∧ d.getLsbD 0 = false ∧ d.getLsbD 1 = true ∧
      (s.cr.getLsbD 0 = true ∨ s.cr.getLsbD 1 = false)

/-- R35: the core never writes `BNRY`: only a host write, or a hard reset, changes it. -/
def Obligations.OnlyHostMovesBoundary : Prop :=
  ∀ s t : State, step s = .next t → t.bnry ≠ s.bnry →
    fetch s = .instr (.p0wBnry t.bnry) ∨ (fetch s = .event .hardReset ∧ t.bnry = 0)

/-- R102: `CR.PS` is changed only by `WR.CR` and by a reset. -/
def Obligations.OnlyCommandWriteOrResetChangesPage : Prop :=
  ∀ s t : State, step s = .next t → t.cr.extractLsb' 6 2 ≠ s.cr.extractLsb' 6 2 →
    (∃ d, fetch s = .instr (.wrCr d) ∧ t.cr.extractLsb' 6 2 = d.extractLsb' 6 2) ∨
    ((fetch s = .instr .resetRd ∨ (∃ v, fetch s = .instr (.resetWr v)) ∨ fetch s = .event .hardReset) ∧
      t.cr.extractLsb' 6 2 = 0#2)

/-- No instruction but a data-port write changes local RAM (R80, R255, R331, R342). -/
def Obligations.OnlyDataPortWritesChangeRamAmongInstructions : Prop :=
  ∀ (i : Instr) (s t : State), exec i s = .next t → t.ram ≠ s.ram →
    (∃ v, i = .dataWr8 v) ∨ ∃ v, i = .dataWr16 v

/-! ### Reception -/

/-- R281, R291: a frame dropped at the gate or by the filter changes nothing. -/
def Obligations.DroppedFrameChangesNothing : Prop :=
  ∀ (s : State) (frame : List Byte),
    (¬(s.running = true ∧ s.linkUp = true ∧ s.cr.getLsbD 1 = true ∧ s.cr.getLsbD 0 = false ∧ 8 ≤ frame.length) →
      netRx s frame = s) ∧
    (matchAddr s (frame.take 6) = .none → netRx s frame = s)

/-- R296: an accepted frame in monitor mode. -/
def Obligations.MonitorModeCountsAndReports : Prop :=
  ∀ (s : State) (frame : List Byte),
    s.running = true → s.linkUp = true → s.cr.getLsbD 1 = true → s.cr.getLsbD 0 = false → 8 ≤ frame.length →
    matchAddr s (frame.take 6) ≠ .none → s.rcr.getLsbD 5 = true →
    netRx s frame = updateIrq { s with
      cntr2 := if s.cntr2 < 192 then s.cntr2 + 1 else s.cntr2
      isr := s.isr ||| 0x04
      rsr := if matchAddr s (frame.take 6) = .bcast ∨ matchAddr s (frame.take 6) = .mcast then 0x30 else 0x10 }

/-- R301 to R303, R305: an accepted frame outside monitor mode is stored or overflows, with the status of each. Which of
the two (R300, R301, R304, R309, R418): in a ring that holds `CURR` and `BNRY` it is stored exactly when it takes fewer
pages than there are from `CURR` forward to `BNRY` round the ring, and overflows exactly when it does not. -/
def Obligations.AcceptedFrameIsStoredOrOverflows : Prop :=
  ∀ (s : State) (frame : List Byte),
    s.running = true → s.linkUp = true → s.cr.getLsbD 1 = true → s.cr.getLsbD 0 = false → 8 ≤ frame.length →
    matchAddr s (frame.take 6) ≠ .none → s.rcr.getLsbD 5 = false →
    let t := netRx s frame
    let phy : Byte :=
      if matchAddr s (frame.take 6) = .bcast ∨ matchAddr s (frame.take 6) = .mcast then 0x20 else 0x00
    let stored := t.rsr = phy ||| 0x01 ∧ t.isr ||| 0x20 = s.isr ||| 0x21 ∧ t.clda = t.curr ++ 0x00#8 ∧ t.curr ≠ s.bnry
    let overflows :=
      t.rsr = phy ||| 0x10 ∧ t.isr ||| 0x20 = s.isr ||| 0xB4 ∧ t.clda = s.bnry ++ 0x00#8 ∧ t.curr = s.curr
    t.cntr2 = s.cntr2 ∧ (stored ∨ overflows) ∧
    (s.pstart ≤ s.curr → s.curr < s.pstop → s.pstart ≤ s.bnry → s.bnry < s.pstop →
      (stored ↔ pagesOfFrame frame.length < pagesToBoundary s s.curr) ∧
      (overflows ↔ pagesToBoundary s s.curr ≤ pagesOfFrame frame.length))

/-- What a receive never changes (R306; R266 is marked by the spec as derived from R256 and R300 to R305). -/
def Obligations.ReceptionFrame : Prop :=
  ∀ (s : State) (frame : List Byte),
    let t := netRx s frame
    t = { s with
      rsr := t.rsr, isr := t.isr, cntr2 := t.cntr2, clda := t.clda, curr := t.curr, ram := t.ram
      irqLevel := t.irqLevel, irqCalls := t.irqCalls }

/-- R301: in a sound ring a frame never overwrites what the host has not released, nor anything outside the ring. -/
def Obligations.ReceptionSparesUnreadPagesAndAllOutsideTheRing : Prop :=
  ∀ (s : State) (frame : List Byte), RingSound s →
    (∀ a : Word, UnreadPage s (hiByte a) → localRead (netRx s frame) a = localRead s a) ∧
    (∀ o, (∀ a : Word, s.pstart ≤ hiByte a → hiByte a < s.pstop → decodeLocal s.cfg.variant a ≠ some o) →
      Memory.read (netRx s frame).ram o = Memory.read s.ram o)

/-- R297 to R300, R304, R108: in a sound ring a stored frame is read back whole: header, padded frame, FCS placeholder
(its zeros are R299's, log 16), wrapped round the ring; `CURR` is the page after it. -/
def Obligations.StoredFrameReadsBackWhole : Prop :=
  ∀ (s : State) (frame : List Byte), RingSound s → RamCanonical s →
    s.running = true → s.linkUp = true → s.cr.getLsbD 1 = true → s.cr.getLsbD 0 = false → 8 ≤ frame.length →
    matchAddr s (frame.take 6) ≠ .none → s.rcr.getLsbD 5 = false →
    let t := netRx s frame
    t.rsr.getLsbD 0 = true →
    let g := frame ++ List.replicate (60 - frame.length) 0x00#8
    let n := g.length + 8
    t.curr = hiByte (ringAddr s (256 * ((n + 255) / 256))) ∧
    localRead t (ringAddr s 0) = t.rsr ∧ localRead t (ringAddr s 1) = t.curr ∧
    localRead t (ringAddr s 2) = BitVec.ofNat 8 n ∧ localRead t (ringAddr s 3) = BitVec.ofNat 8 (n / 256) ∧
    ∀ (k : Nat) (h : k < (g ++ [0, 0, 0, 0]).length), localRead t (ringAddr s (4 + k)) = (g ++ [0, 0, 0, 0])[k]

/-! ### The address filter and the CRC -/

/-- R283, R284, R286, R287, R288, R290: the four predicates and their order. -/
def Obligations.AddressFilterPredicatesAndOrder : Prop :=
  ∀ (s : State) (d0 d1 d2 d3 d4 d5 : Byte),
    let d := [d0, d1, d2, d3, d4, d5]
    let padr := d0 = s.par[0] ∧ d1 = s.par[1] ∧ d2 = s.par[2] ∧ d3 = s.par[3] ∧ d4 = s.par[4] ∧ d5 = s.par[5]
    let bcast := s.rcr.getLsbD 2 = true ∧ d0 = 0xFF ∧ d1 = 0xFF ∧ d2 = 0xFF ∧ d3 = 0xFF ∧ d4 = 0xFF ∧ d5 = 0xFF
    let k := (mcHash d).toNat
    let mcast := s.rcr.getLsbD 3 = true ∧ d0.getLsbD 0 = true ∧ (s.mar.toList.getD (k / 8) 0).getLsbD (k % 8) = true
    let prom := s.rcr.getLsbD 4 = true ∧ d0.getLsbD 0 = false
    (padr → matchAddr s d = .padr) ∧
    (¬padr → bcast → matchAddr s d = .bcast) ∧
    (¬padr → ¬bcast → mcast → matchAddr s d = .mcast) ∧
    (¬padr → ¬bcast → ¬mcast → prom → matchAddr s d = .prom) ∧
    (¬padr → ¬bcast → ¬mcast → ¬prom → matchAddr s d = .none)

/-- The hash by the reflected CRC is the top six bits of the MSB-first CRC: R289 says so of the six bytes of an address,
the statement of sequences of any length. -/
def Obligations.MulticastHashIsTopOfMsbFirstCrc : Prop :=
  ∀ d : List Byte, mcHash d = (msbCrc d).extractLsb' 26 6

/-- The check values of R97 and the pairs of R292, which the spec marks as derived from R289 and R97. -/
def Obligations.CrcCheckValuesAndHashPairs : Prop :=
  crc32 [0x31, 0x32, 0x33, 0x34, 0x35, 0x36, 0x37, 0x38, 0x39] = 0xCBF43926 ∧ crc32 [] = 0 ∧
  mcHash [0x01, 0x00, 0x5E, 0x00, 0x00, 0x01] = 31 ∧ mcHash [0x01, 0x00, 0x5E, 0x00, 0x00, 0xFB] = 15 ∧
  mcHash [0x33, 0x33, 0x00, 0x00, 0x00, 0x01] = 62 ∧ mcHash [0x01, 0x80, 0xC2, 0x00, 0x00, 0x00] = 25 ∧
  mcHash [0xFF, 0xFF, 0xFF, 0xFF, 0xFF, 0xFF] = 63 ∧ mcHash [0x09, 0x00, 0x2B, 0x00, 0x00, 0x04] = 19 ∧
  mcHash [0x01, 0x00, 0x5E, 0x7F, 0xFF, 0xFA] = 43

/-! ### Transmission -/

/-- R322, R324, R326 to R330: the network path and the giant rejection, for every answer the network gives. That the
answer is the oldest of the queue `netAnswers` is the model's (DESIGN CHOICE, log 6); the empty queue is left to
`NetworkTransmissionFrame`. -/
def Obligations.NetworkPathReportsGiantsLinkAndAnswer : Prop :=
  ∀ (s : State),
    (1536 < s.tbcr.toNat → txEngine s = updateIrq { s with tsr := 0x80, isr := s.isr ||| 0x08, cr := s.cr &&& 0xFB }) ∧
    (s.tbcr.toNat ≤ 1536 → s.tcr.extractLsb' 1 2 = 0#2 → s.linkUp = false →
      txEngine s = updateIrq { s with tsr := 0x04, isr := s.isr ||| 0x08, cr := s.cr &&& 0xFB }) ∧
    (s.tbcr.toNat ≤ 1536 → s.tcr.extractLsb' 1 2 = 0#2 → s.linkUp = true →
      let frame := (List.range s.tbcr.toNat).map fun i => localRead s ((s.tpsr ++ 0x00#8) + BitVec.ofNat 16 i)
      ∀ (r : NetTxResult) (rest : List NetTxResult), s.netAnswers = r :: rest →
        txEngine s = updateIrq { s with
          tsr := if r = .success then 0x01 else 0x04
          isr := if r = .success then s.isr ||| 0x02 else s.isr ||| 0x08
          cr := s.cr &&& 0xFB, netTx := frame :: s.netTx, netAnswers := rest })

/-- R332 to R342: the loopback path; a FIFO cell that the stream does not reach keeps its byte. -/
def Obligations.LoopbackTransmitsSelectedBytesIntoFifo : Prop :=
  ∀ (s : State), s.tbcr.toNat ≤ 1536 → s.tcr.extractLsb' 1 2 ≠ 0#2 →
    let word := s.dcr.getLsbD 0
    let n := if word then s.tbcr.toNat / 2 else s.tbcr.toNat
    let sent := (List.range n).map fun i =>
      localRead s ((s.tpsr ++ 0x00#8) + BitVec.ofNat 16 (if word then 2 * i + (s.dcr.getLsbD 1).toNat else i))
    let fcs := crc32 sent
    let stream := if s.tcr.getLsbD 0 then sent
      else sent ++ [fcs.extractLsb' 0 8, fcs.extractLsb' 8 8, fcs.extractLsb' 16 8, fcs.extractLsb' 24 8]
    let t := txEngine s
    t = { s with
      cr := s.cr &&& 0xFB, rsr := t.rsr, tsr := t.tsr, isr := t.isr, fifo := t.fifo
      fifoWp := s.fifoWp + BitVec.ofNat 4 stream.length, loopOut := ⟨sent, stream⟩ :: s.loopOut
      irqLevel := t.irqLevel, irqCalls := t.irqCalls } ∧
    t.tsr = (if s.tcr.extractLsb' 1 2 = 1#2 then 0x51 else if s.tcr.extractLsb' 1 2 = 2#2 then 0x41 else 0x01) ∧
    t.isr ||| 0x20 = s.isr ||| 0x22 ∧
    (∀ j, j < 16 → j < stream.length →
      t.fifo[(t.fifoWp - 1 - BitVec.ofNat 4 j).toNat]'(BitVec.isLt _) = stream.getD (stream.length - 1 - j) 0) ∧
    (∀ k : Nibble, stream.length ≤ (k - s.fifoWp).toNat →
      t.fifo[k.toNat]'(BitVec.isLt _) = s.fifo[k.toNat]'(BitVec.isLt _)) ∧
    (s.tcr.getLsbD 0 = true →
      t.rsr = if 4 ≤ n ∧ sent.drop (n - 4) =
          (let c := crc32 (sent.take (n - 4))
           [c.extractLsb' 0 8, c.extractLsb' 8 8, c.extractLsb' 16 8, c.extractLsb' 24 8]) then 0x01 else 0x02) ∧
    (s.tcr.getLsbD 0 = false →
      t.rsr = if n < 6 ∨ matchAddr s (sent.take 6) = .none then 0x00
        else if matchAddr s (sent.take 6) = .bcast ∨ matchAddr s (sent.take 6) = .mcast then 0x21 else 0x01)

/-- R320, R322, R324, R326 to R331: what a network transmission never changes, whatever the network answers; the frame is
handed over once, whole, with the link up and at most 1536 bytes, and nothing is handed over otherwise; exactly one of
`ISR.PTX`, `ISR.TXE` is raised. The queue `netAnswers` and the count `freeCount` of the free values drawn where no answer
waits are the model's (DESIGN CHOICE, log 6). -/
def Obligations.NetworkTransmissionFrame : Prop :=
  ∀ (s : State), s.tcr.extractLsb' 1 2 = 0#2 →
    let t := txEngine s
    let frame := (List.range s.tbcr.toNat).map fun i => localRead s ((s.tpsr ++ 0x00#8) + BitVec.ofNat 16 i)
    t = { s with
      cr := s.cr &&& 0xFB, tsr := t.tsr, isr := t.isr, irqLevel := t.irqLevel, irqCalls := t.irqCalls
      netTx := t.netTx, netAnswers := t.netAnswers, freeCount := t.freeCount } ∧
    (s.tbcr.toNat ≤ 1536 → s.linkUp = true → t.netTx = frame :: s.netTx ∧ (t.tsr = 0x01 ∨ t.tsr = 0x04)) ∧
    (s.tbcr.toNat ≤ 1536 → s.linkUp = false →
      t.netTx = s.netTx ∧ t.netAnswers = s.netAnswers ∧ t.freeCount = s.freeCount ∧ t.tsr = 0x04) ∧
    (1536 < s.tbcr.toNat →
      t.netTx = s.netTx ∧ t.netAnswers = s.netAnswers ∧ t.freeCount = s.freeCount ∧ t.tsr = 0x80) ∧
    ((t.tsr = 0x01 ∧ t.isr ||| 0x20 = s.isr ||| 0x22) ∨
     ((t.tsr = 0x04 ∨ t.tsr = 0x80) ∧ t.isr ||| 0x20 = s.isr ||| 0x28))
end

