-- ==== Sys2Proof/Laws/Memory.lean ====
section
/-! SUPPORT. Local RAM: reading after writing, and the canonical form is kept by every write. -/

namespace Sys2Proof.Machine

theorem Memory.read_nil (o : Nat) : Memory.read [] o = 0 := rfl

/-- In a canonical list from `lo` on, an offset below `lo` is not listed. -/
theorem Memory.read_below {lo o : Nat} {m : Memory} (h : Memory.wfFrom lo m = true) (ho : o < lo) :
    Memory.read m o = 0 := by
  induction m generalizing lo with
  | nil => rfl
  | cons c rest ih =>
    obtain ⟨a, x⟩ := c
    simp only [Memory.wfFrom, Bool.and_eq_true, decide_eq_true_eq] at h
    have hne : ¬ a = o := by omega
    simp only [Memory.read, if_neg hne]
    exact ih h.2 (by omega)

/-- The canonical form does not depend on a lower bound that is smaller. -/
theorem Memory.wfFrom_mono {lo lo' : Nat} {m : Memory} (h : Memory.wfFrom lo m = true) (hl : lo' ≤ lo) :
    Memory.wfFrom lo' m = true := by
  cases m with
  | nil => rfl
  | cons c rest =>
    obtain ⟨a, x⟩ := c
    simp only [Memory.wfFrom, Bool.and_eq_true, decide_eq_true_eq] at h ⊢
    exact ⟨⟨⟨by omega, h.1.1.2⟩, h.1.2⟩, h.2⟩

/-- A write at or above the least offset keeps the canonical form. -/
theorem Memory.write_wfFrom {lo o : Nat} {b : Byte} {m : Memory} (h : Memory.wfFrom lo m = true) (hlo : lo ≤ o)
    (ho : o < Config.memSize) : Memory.wfFrom lo (Memory.write m o b) = true := by
  induction m generalizing lo with
  | nil =>
    simp only [Memory.write]
    split
    · rfl
    · rename_i hb
      have hb' : ¬ b = 0#8 := hb
      simp [Memory.wfFrom, hlo, ho, hb']
  | cons c rest ih =>
    obtain ⟨a, x⟩ := c
    have h' := h
    simp only [Memory.wfFrom, Bool.and_eq_true, decide_eq_true_eq, bne_iff_ne, ne_eq] at h
    obtain ⟨⟨⟨h1, h2⟩, h3⟩, h4⟩ := h
    simp only [Memory.write]
    split
    · split
      · exact h'
      · rename_i hoa hb
        have : o + 1 ≤ a := by omega
        have hb' : b ≠ 0#8 := hb
        have h3' : x ≠ 0#8 := h3
        simp [Memory.wfFrom, hlo, ho, hb', this, h2, h3', h4]
    · split
      · split
        · exact Memory.wfFrom_mono h4 (by omega)
        · rename_i _ hoa hb
          subst hoa
          have hb' : b ≠ 0#8 := hb
          simp [Memory.wfFrom, h1, h2, hb', h4]
      · rename_i h5 h6
        simp only [Memory.wfFrom, Bool.and_eq_true, decide_eq_true_eq, bne_iff_ne, ne_eq]
        exact ⟨⟨⟨h1, h2⟩, h3⟩, ih h4 (by omega)⟩

/-- Every write inside local RAM keeps the canonical form. -/
theorem Memory.write_wf {m : Memory} {o : Nat} {b : Byte} (h : Memory.wf m = true) (ho : o < Config.memSize) :
    Memory.wf (Memory.write m o b) = true :=
  Memory.write_wfFrom h (Nat.zero_le o) ho

/-- A write leaves every other byte alone, in any list. -/
theorem Memory.read_write_other {m : Memory} {o p : Nat} {b : Byte} (h : p ≠ o) :
    Memory.read (Memory.write m o b) p = Memory.read m p := by
  induction m with
  | nil =>
    simp only [Memory.write]
    split <;> simp [Memory.read, h.symm]
  | cons c rest ih =>
    obtain ⟨a, x⟩ := c
    simp only [Memory.write]
    split
    · split <;> simp [Memory.read, h.symm]
    · split
      · rename_i hoa
        subst hoa
        split <;> simp [Memory.read, h.symm]
      · simp [Memory.read, ih]

/-- A read after a write to the same offset gives the byte written, in a canonical list. -/
theorem Memory.read_write_same_from {lo o : Nat} {m : Memory} {b : Byte} (h : Memory.wfFrom lo m = true) :
    Memory.read (Memory.write m o b) o = b := by
  induction m generalizing lo with
  | nil =>
    simp only [Memory.write]
    split <;> simp_all [Memory.read]
  | cons c rest ih =>
    obtain ⟨a, x⟩ := c
    have h' := h
    simp only [Memory.wfFrom, Bool.and_eq_true, decide_eq_true_eq, bne_iff_ne, ne_eq] at h
    obtain ⟨⟨⟨h1, h2⟩, h3⟩, h4⟩ := h
    simp only [Memory.write]
    split
    · rename_i hoa
      split
      · rename_i hb
        have hne : ¬ a = o := by omega
        simp only [Memory.read, if_neg hne, hb]
        exact Memory.read_below h4 (by omega)
      · simp [Memory.read]
    · split
      · rename_i hoa
        subst hoa
        split
        · rename_i hb
          rw [hb]
          exact Memory.read_below h4 (by omega)
        · simp [Memory.read]
      · rename_i hlt hne
        have hne' : ¬ a = o := fun e => hne e.symm
        simp only [Memory.read, if_neg hne']
        exact ih h4

/-- A read after a write to the same offset gives the byte written. -/
theorem Memory.read_write_same {m : Memory} {o : Nat} {b : Byte} (h : Memory.wf m = true) :
    Memory.read (Memory.write m o b) o = b :=
  Memory.read_write_same_from h

/-- The decode answers offsets inside local RAM only. -/
theorem decodeLocal_lt {v : Variant} {a : Word} {o : Nat} (h : decodeLocal v a = some o) : o < Config.memSize := by
  cases v <;> simp only [decodeLocal, Config.memSize] at h ⊢ <;> (try split at h) <;> simp_all <;> omega

end Sys2Proof.Machine
end

