-- ==== Sys2Proof/Laws/State.lean ====
section
/-! SUPPORT. One lemma for each field of the state under each named update, true by rfl: later proofs never unfold a
record update. -/

namespace Sys2Proof.Machine

variable (s : State)

@[simp] theorem State.withReply_cr (r : Reply) : (s.withReply r).cr = s.cr := rfl
@[simp] theorem State.withReply_isr (r : Reply) : (s.withReply r).isr = s.isr := rfl
@[simp] theorem State.withReply_imr (r : Reply) : (s.withReply r).imr = s.imr := rfl
@[simp] theorem State.withReply_dcr (r : Reply) : (s.withReply r).dcr = s.dcr := rfl
@[simp] theorem State.withReply_rcr (r : Reply) : (s.withReply r).rcr = s.rcr := rfl
@[simp] theorem State.withReply_rsr (r : Reply) : (s.withReply r).rsr = s.rsr := rfl
@[simp] theorem State.withReply_tcr (r : Reply) : (s.withReply r).tcr = s.tcr := rfl
@[simp] theorem State.withReply_tsr (r : Reply) : (s.withReply r).tsr = s.tsr := rfl
@[simp] theorem State.withReply_tpsr (r : Reply) : (s.withReply r).tpsr = s.tpsr := rfl
@[simp] theorem State.withReply_tbcr (r : Reply) : (s.withReply r).tbcr = s.tbcr := rfl
@[simp] theorem State.withReply_pstart (r : Reply) : (s.withReply r).pstart = s.pstart := rfl
@[simp] theorem State.withReply_pstop (r : Reply) : (s.withReply r).pstop = s.pstop := rfl
@[simp] theorem State.withReply_bnry (r : Reply) : (s.withReply r).bnry = s.bnry := rfl
@[simp] theorem State.withReply_curr (r : Reply) : (s.withReply r).curr = s.curr := rfl
@[simp] theorem State.withReply_clda (r : Reply) : (s.withReply r).clda = s.clda := rfl
@[simp] theorem State.withReply_rsar (r : Reply) : (s.withReply r).rsar = s.rsar := rfl
@[simp] theorem State.withReply_rbcr (r : Reply) : (s.withReply r).rbcr = s.rbcr := rfl
@[simp] theorem State.withReply_crda (r : Reply) : (s.withReply r).crda = s.crda := rfl
@[simp] theorem State.withReply_par (r : Reply) : (s.withReply r).par = s.par := rfl
@[simp] theorem State.withReply_mar (r : Reply) : (s.withReply r).mar = s.mar := rfl
@[simp] theorem State.withReply_cntr0 (r : Reply) : (s.withReply r).cntr0 = s.cntr0 := rfl
@[simp] theorem State.withReply_cntr1 (r : Reply) : (s.withReply r).cntr1 = s.cntr1 := rfl
@[simp] theorem State.withReply_cntr2 (r : Reply) : (s.withReply r).cntr2 = s.cntr2 := rfl
@[simp] theorem State.withReply_fifo (r : Reply) : (s.withReply r).fifo = s.fifo := rfl
@[simp] theorem State.withReply_fifoRp (r : Reply) : (s.withReply r).fifoRp = s.fifoRp := rfl
@[simp] theorem State.withReply_fifoWp (r : Reply) : (s.withReply r).fifoWp = s.fifoWp := rfl
@[simp] theorem State.withReply_rnpp (r : Reply) : (s.withReply r).rnpp = s.rnpp := rfl
@[simp] theorem State.withReply_lnpp (r : Reply) : (s.withReply r).lnpp = s.lnpp := rfl
@[simp] theorem State.withReply_acu (r : Reply) : (s.withReply r).acu = s.acu := rfl
@[simp] theorem State.withReply_acl (r : Reply) : (s.withReply r).acl = s.acl := rfl
@[simp] theorem State.withReply_ram (r : Reply) : (s.withReply r).ram = s.ram := rfl
@[simp] theorem State.withReply_irqLevel (r : Reply) : (s.withReply r).irqLevel = s.irqLevel := rfl
@[simp] theorem State.withReply_linkUp (r : Reply) : (s.withReply r).linkUp = s.linkUp := rfl
@[simp] theorem State.withReply_running (r : Reply) : (s.withReply r).running = s.running := rfl
@[simp] theorem State.withReply_gaNim (r : Reply) : (s.withReply r).gaNim = s.gaNim := rfl
@[simp] theorem State.withReply_gaTcm (r : Reply) : (s.withReply r).gaTcm = s.gaTcm := rfl
@[simp] theorem State.withReply_gaDtc (r : Reply) : (s.withReply r).gaDtc = s.gaDtc := rfl
@[simp] theorem State.withReply_meme (r : Reply) : (s.withReply r).meme = s.meme := rfl
@[simp] theorem State.withReply_ealo (r : Reply) : (s.withReply r).ealo = s.ealo := rfl
@[simp] theorem State.withReply_eahi (r : Reply) : (s.withReply r).eahi = s.eahi := rfl
@[simp] theorem State.withReply_cfg (r : Reply) : (s.withReply r).cfg = s.cfg := rfl
@[simp] theorem State.withReply_inputs (r : Reply) : (s.withReply r).inputs = s.inputs := rfl
@[simp] theorem State.withReply_netAnswers (r : Reply) : (s.withReply r).netAnswers = s.netAnswers := rfl
@[simp] theorem State.withReply_freeCount (r : Reply) : (s.withReply r).freeCount = s.freeCount := rfl
@[simp] theorem State.withReply_reply (r : Reply) : (s.withReply r).reply = some r := rfl
@[simp] theorem State.withReply_netTx (r : Reply) : (s.withReply r).netTx = s.netTx := rfl
@[simp] theorem State.withReply_loopOut (r : Reply) : (s.withReply r).loopOut = s.loopOut := rfl
@[simp] theorem State.withReply_irqCalls (r : Reply) : (s.withReply r).irqCalls = s.irqCalls := rfl

@[simp] theorem State.withCr_cr (x : Byte) : (s.withCr x).cr = x := rfl
@[simp] theorem State.withCr_isr (x : Byte) : (s.withCr x).isr = s.isr := rfl
@[simp] theorem State.withCr_imr (x : Byte) : (s.withCr x).imr = s.imr := rfl
@[simp] theorem State.withCr_dcr (x : Byte) : (s.withCr x).dcr = s.dcr := rfl
@[simp] theorem State.withCr_rcr (x : Byte) : (s.withCr x).rcr = s.rcr := rfl
@[simp] theorem State.withCr_rsr (x : Byte) : (s.withCr x).rsr = s.rsr := rfl
@[simp] theorem State.withCr_tcr (x : Byte) : (s.withCr x).tcr = s.tcr := rfl
@[simp] theorem State.withCr_tsr (x : Byte) : (s.withCr x).tsr = s.tsr := rfl
@[simp] theorem State.withCr_tpsr (x : Byte) : (s.withCr x).tpsr = s.tpsr := rfl
@[simp] theorem State.withCr_tbcr (x : Byte) : (s.withCr x).tbcr = s.tbcr := rfl
@[simp] theorem State.withCr_pstart (x : Byte) : (s.withCr x).pstart = s.pstart := rfl
@[simp] theorem State.withCr_pstop (x : Byte) : (s.withCr x).pstop = s.pstop := rfl
@[simp] theorem State.withCr_bnry (x : Byte) : (s.withCr x).bnry = s.bnry := rfl
@[simp] theorem State.withCr_curr (x : Byte) : (s.withCr x).curr = s.curr := rfl
@[simp] theorem State.withCr_clda (x : Byte) : (s.withCr x).clda = s.clda := rfl
@[simp] theorem State.withCr_rsar (x : Byte) : (s.withCr x).rsar = s.rsar := rfl
@[simp] theorem State.withCr_rbcr (x : Byte) : (s.withCr x).rbcr = s.rbcr := rfl
@[simp] theorem State.withCr_crda (x : Byte) : (s.withCr x).crda = s.crda := rfl
@[simp] theorem State.withCr_par (x : Byte) : (s.withCr x).par = s.par := rfl
@[simp] theorem State.withCr_mar (x : Byte) : (s.withCr x).mar = s.mar := rfl
@[simp] theorem State.withCr_cntr0 (x : Byte) : (s.withCr x).cntr0 = s.cntr0 := rfl
@[simp] theorem State.withCr_cntr1 (x : Byte) : (s.withCr x).cntr1 = s.cntr1 := rfl
@[simp] theorem State.withCr_cntr2 (x : Byte) : (s.withCr x).cntr2 = s.cntr2 := rfl
@[simp] theorem State.withCr_fifo (x : Byte) : (s.withCr x).fifo = s.fifo := rfl
@[simp] theorem State.withCr_fifoRp (x : Byte) : (s.withCr x).fifoRp = s.fifoRp := rfl
@[simp] theorem State.withCr_fifoWp (x : Byte) : (s.withCr x).fifoWp = s.fifoWp := rfl
@[simp] theorem State.withCr_rnpp (x : Byte) : (s.withCr x).rnpp = s.rnpp := rfl
@[simp] theorem State.withCr_lnpp (x : Byte) : (s.withCr x).lnpp = s.lnpp := rfl
@[simp] theorem State.withCr_acu (x : Byte) : (s.withCr x).acu = s.acu := rfl
@[simp] theorem State.withCr_acl (x : Byte) : (s.withCr x).acl = s.acl := rfl
@[simp] theorem State.withCr_ram (x : Byte) : (s.withCr x).ram = s.ram := rfl
@[simp] theorem State.withCr_irqLevel (x : Byte) : (s.withCr x).irqLevel = s.irqLevel := rfl
@[simp] theorem State.withCr_linkUp (x : Byte) : (s.withCr x).linkUp = s.linkUp := rfl
@[simp] theorem State.withCr_running (x : Byte) : (s.withCr x).running = s.running := rfl
@[simp] theorem State.withCr_gaNim (x : Byte) : (s.withCr x).gaNim = s.gaNim := rfl
@[simp] theorem State.withCr_gaTcm (x : Byte) : (s.withCr x).gaTcm = s.gaTcm := rfl
@[simp] theorem State.withCr_gaDtc (x : Byte) : (s.withCr x).gaDtc = s.gaDtc := rfl
@[simp] theorem State.withCr_meme (x : Byte) : (s.withCr x).meme = s.meme := rfl
@[simp] theorem State.withCr_ealo (x : Byte) : (s.withCr x).ealo = s.ealo := rfl
@[simp] theorem State.withCr_eahi (x : Byte) : (s.withCr x).eahi = s.eahi := rfl
@[simp] theorem State.withCr_cfg (x : Byte) : (s.withCr x).cfg = s.cfg := rfl
@[simp] theorem State.withCr_inputs (x : Byte) : (s.withCr x).inputs = s.inputs := rfl
@[simp] theorem State.withCr_netAnswers (x : Byte) : (s.withCr x).netAnswers = s.netAnswers := rfl
@[simp] theorem State.withCr_freeCount (x : Byte) : (s.withCr x).freeCount = s.freeCount := rfl
@[simp] theorem State.withCr_reply (x : Byte) : (s.withCr x).reply = s.reply := rfl
@[simp] theorem State.withCr_netTx (x : Byte) : (s.withCr x).netTx = s.netTx := rfl
@[simp] theorem State.withCr_loopOut (x : Byte) : (s.withCr x).loopOut = s.loopOut := rfl
@[simp] theorem State.withCr_irqCalls (x : Byte) : (s.withCr x).irqCalls = s.irqCalls := rfl

@[simp] theorem State.withIsr_cr (x : Byte) : (s.withIsr x).cr = s.cr := rfl
@[simp] theorem State.withIsr_isr (x : Byte) : (s.withIsr x).isr = x := rfl
@[simp] theorem State.withIsr_imr (x : Byte) : (s.withIsr x).imr = s.imr := rfl
@[simp] theorem State.withIsr_dcr (x : Byte) : (s.withIsr x).dcr = s.dcr := rfl
@[simp] theorem State.withIsr_rcr (x : Byte) : (s.withIsr x).rcr = s.rcr := rfl
@[simp] theorem State.withIsr_rsr (x : Byte) : (s.withIsr x).rsr = s.rsr := rfl
@[simp] theorem State.withIsr_tcr (x : Byte) : (s.withIsr x).tcr = s.tcr := rfl
@[simp] theorem State.withIsr_tsr (x : Byte) : (s.withIsr x).tsr = s.tsr := rfl
@[simp] theorem State.withIsr_tpsr (x : Byte) : (s.withIsr x).tpsr = s.tpsr := rfl
@[simp] theorem State.withIsr_tbcr (x : Byte) : (s.withIsr x).tbcr = s.tbcr := rfl
@[simp] theorem State.withIsr_pstart (x : Byte) : (s.withIsr x).pstart = s.pstart := rfl
@[simp] theorem State.withIsr_pstop (x : Byte) : (s.withIsr x).pstop = s.pstop := rfl
@[simp] theorem State.withIsr_bnry (x : Byte) : (s.withIsr x).bnry = s.bnry := rfl
@[simp] theorem State.withIsr_curr (x : Byte) : (s.withIsr x).curr = s.curr := rfl
@[simp] theorem State.withIsr_clda (x : Byte) : (s.withIsr x).clda = s.clda := rfl
@[simp] theorem State.withIsr_rsar (x : Byte) : (s.withIsr x).rsar = s.rsar := rfl
@[simp] theorem State.withIsr_rbcr (x : Byte) : (s.withIsr x).rbcr = s.rbcr := rfl
@[simp] theorem State.withIsr_crda (x : Byte) : (s.withIsr x).crda = s.crda := rfl
@[simp] theorem State.withIsr_par (x : Byte) : (s.withIsr x).par = s.par := rfl
@[simp] theorem State.withIsr_mar (x : Byte) : (s.withIsr x).mar = s.mar := rfl
@[simp] theorem State.withIsr_cntr0 (x : Byte) : (s.withIsr x).cntr0 = s.cntr0 := rfl
@[simp] theorem State.withIsr_cntr1 (x : Byte) : (s.withIsr x).cntr1 = s.cntr1 := rfl
@[simp] theorem State.withIsr_cntr2 (x : Byte) : (s.withIsr x).cntr2 = s.cntr2 := rfl
@[simp] theorem State.withIsr_fifo (x : Byte) : (s.withIsr x).fifo = s.fifo := rfl
@[simp] theorem State.withIsr_fifoRp (x : Byte) : (s.withIsr x).fifoRp = s.fifoRp := rfl
@[simp] theorem State.withIsr_fifoWp (x : Byte) : (s.withIsr x).fifoWp = s.fifoWp := rfl
@[simp] theorem State.withIsr_rnpp (x : Byte) : (s.withIsr x).rnpp = s.rnpp := rfl
@[simp] theorem State.withIsr_lnpp (x : Byte) : (s.withIsr x).lnpp = s.lnpp := rfl
@[simp] theorem State.withIsr_acu (x : Byte) : (s.withIsr x).acu = s.acu := rfl
@[simp] theorem State.withIsr_acl (x : Byte) : (s.withIsr x).acl = s.acl := rfl
@[simp] theorem State.withIsr_ram (x : Byte) : (s.withIsr x).ram = s.ram := rfl
@[simp] theorem State.withIsr_irqLevel (x : Byte) : (s.withIsr x).irqLevel = s.irqLevel := rfl
@[simp] theorem State.withIsr_linkUp (x : Byte) : (s.withIsr x).linkUp = s.linkUp := rfl
@[simp] theorem State.withIsr_running (x : Byte) : (s.withIsr x).running = s.running := rfl
@[simp] theorem State.withIsr_gaNim (x : Byte) : (s.withIsr x).gaNim = s.gaNim := rfl
@[simp] theorem State.withIsr_gaTcm (x : Byte) : (s.withIsr x).gaTcm = s.gaTcm := rfl
@[simp] theorem State.withIsr_gaDtc (x : Byte) : (s.withIsr x).gaDtc = s.gaDtc := rfl
@[simp] theorem State.withIsr_meme (x : Byte) : (s.withIsr x).meme = s.meme := rfl
@[simp] theorem State.withIsr_ealo (x : Byte) : (s.withIsr x).ealo = s.ealo := rfl
@[simp] theorem State.withIsr_eahi (x : Byte) : (s.withIsr x).eahi = s.eahi := rfl
@[simp] theorem State.withIsr_cfg (x : Byte) : (s.withIsr x).cfg = s.cfg := rfl
@[simp] theorem State.withIsr_inputs (x : Byte) : (s.withIsr x).inputs = s.inputs := rfl
@[simp] theorem State.withIsr_netAnswers (x : Byte) : (s.withIsr x).netAnswers = s.netAnswers := rfl
@[simp] theorem State.withIsr_freeCount (x : Byte) : (s.withIsr x).freeCount = s.freeCount := rfl
@[simp] theorem State.withIsr_reply (x : Byte) : (s.withIsr x).reply = s.reply := rfl
@[simp] theorem State.withIsr_netTx (x : Byte) : (s.withIsr x).netTx = s.netTx := rfl
@[simp] theorem State.withIsr_loopOut (x : Byte) : (s.withIsr x).loopOut = s.loopOut := rfl
@[simp] theorem State.withIsr_irqCalls (x : Byte) : (s.withIsr x).irqCalls = s.irqCalls := rfl

@[simp] theorem State.withRam_cr (m : Memory) : (s.withRam m).cr = s.cr := rfl
@[simp] theorem State.withRam_isr (m : Memory) : (s.withRam m).isr = s.isr := rfl
@[simp] theorem State.withRam_imr (m : Memory) : (s.withRam m).imr = s.imr := rfl
@[simp] theorem State.withRam_dcr (m : Memory) : (s.withRam m).dcr = s.dcr := rfl
@[simp] theorem State.withRam_rcr (m : Memory) : (s.withRam m).rcr = s.rcr := rfl
@[simp] theorem State.withRam_rsr (m : Memory) : (s.withRam m).rsr = s.rsr := rfl
@[simp] theorem State.withRam_tcr (m : Memory) : (s.withRam m).tcr = s.tcr := rfl
@[simp] theorem State.withRam_tsr (m : Memory) : (s.withRam m).tsr = s.tsr := rfl
@[simp] theorem State.withRam_tpsr (m : Memory) : (s.withRam m).tpsr = s.tpsr := rfl
@[simp] theorem State.withRam_tbcr (m : Memory) : (s.withRam m).tbcr = s.tbcr := rfl
@[simp] theorem State.withRam_pstart (m : Memory) : (s.withRam m).pstart = s.pstart := rfl
@[simp] theorem State.withRam_pstop (m : Memory) : (s.withRam m).pstop = s.pstop := rfl
@[simp] theorem State.withRam_bnry (m : Memory) : (s.withRam m).bnry = s.bnry := rfl
@[simp] theorem State.withRam_curr (m : Memory) : (s.withRam m).curr = s.curr := rfl
@[simp] theorem State.withRam_clda (m : Memory) : (s.withRam m).clda = s.clda := rfl
@[simp] theorem State.withRam_rsar (m : Memory) : (s.withRam m).rsar = s.rsar := rfl
@[simp] theorem State.withRam_rbcr (m : Memory) : (s.withRam m).rbcr = s.rbcr := rfl
@[simp] theorem State.withRam_crda (m : Memory) : (s.withRam m).crda = s.crda := rfl
@[simp] theorem State.withRam_par (m : Memory) : (s.withRam m).par = s.par := rfl
@[simp] theorem State.withRam_mar (m : Memory) : (s.withRam m).mar = s.mar := rfl
@[simp] theorem State.withRam_cntr0 (m : Memory) : (s.withRam m).cntr0 = s.cntr0 := rfl
@[simp] theorem State.withRam_cntr1 (m : Memory) : (s.withRam m).cntr1 = s.cntr1 := rfl
@[simp] theorem State.withRam_cntr2 (m : Memory) : (s.withRam m).cntr2 = s.cntr2 := rfl
@[simp] theorem State.withRam_fifo (m : Memory) : (s.withRam m).fifo = s.fifo := rfl
@[simp] theorem State.withRam_fifoRp (m : Memory) : (s.withRam m).fifoRp = s.fifoRp := rfl
@[simp] theorem State.withRam_fifoWp (m : Memory) : (s.withRam m).fifoWp = s.fifoWp := rfl
@[simp] theorem State.withRam_rnpp (m : Memory) : (s.withRam m).rnpp = s.rnpp := rfl
@[simp] theorem State.withRam_lnpp (m : Memory) : (s.withRam m).lnpp = s.lnpp := rfl
@[simp] theorem State.withRam_acu (m : Memory) : (s.withRam m).acu = s.acu := rfl
@[simp] theorem State.withRam_acl (m : Memory) : (s.withRam m).acl = s.acl := rfl
@[simp] theorem State.withRam_ram (m : Memory) : (s.withRam m).ram = m := rfl
@[simp] theorem State.withRam_irqLevel (m : Memory) : (s.withRam m).irqLevel = s.irqLevel := rfl
@[simp] theorem State.withRam_linkUp (m : Memory) : (s.withRam m).linkUp = s.linkUp := rfl
@[simp] theorem State.withRam_running (m : Memory) : (s.withRam m).running = s.running := rfl
@[simp] theorem State.withRam_gaNim (m : Memory) : (s.withRam m).gaNim = s.gaNim := rfl
@[simp] theorem State.withRam_gaTcm (m : Memory) : (s.withRam m).gaTcm = s.gaTcm := rfl
@[simp] theorem State.withRam_gaDtc (m : Memory) : (s.withRam m).gaDtc = s.gaDtc := rfl
@[simp] theorem State.withRam_meme (m : Memory) : (s.withRam m).meme = s.meme := rfl
@[simp] theorem State.withRam_ealo (m : Memory) : (s.withRam m).ealo = s.ealo := rfl
@[simp] theorem State.withRam_eahi (m : Memory) : (s.withRam m).eahi = s.eahi := rfl
@[simp] theorem State.withRam_cfg (m : Memory) : (s.withRam m).cfg = s.cfg := rfl
@[simp] theorem State.withRam_inputs (m : Memory) : (s.withRam m).inputs = s.inputs := rfl
@[simp] theorem State.withRam_netAnswers (m : Memory) : (s.withRam m).netAnswers = s.netAnswers := rfl
@[simp] theorem State.withRam_freeCount (m : Memory) : (s.withRam m).freeCount = s.freeCount := rfl
@[simp] theorem State.withRam_reply (m : Memory) : (s.withRam m).reply = s.reply := rfl
@[simp] theorem State.withRam_netTx (m : Memory) : (s.withRam m).netTx = s.netTx := rfl
@[simp] theorem State.withRam_loopOut (m : Memory) : (s.withRam m).loopOut = s.loopOut := rfl
@[simp] theorem State.withRam_irqCalls (m : Memory) : (s.withRam m).irqCalls = s.irqCalls := rfl

@[simp] theorem State.advance_cr : (s.advance).cr = s.cr := rfl
@[simp] theorem State.advance_isr : (s.advance).isr = s.isr := rfl
@[simp] theorem State.advance_imr : (s.advance).imr = s.imr := rfl
@[simp] theorem State.advance_dcr : (s.advance).dcr = s.dcr := rfl
@[simp] theorem State.advance_rcr : (s.advance).rcr = s.rcr := rfl
@[simp] theorem State.advance_rsr : (s.advance).rsr = s.rsr := rfl
@[simp] theorem State.advance_tcr : (s.advance).tcr = s.tcr := rfl
@[simp] theorem State.advance_tsr : (s.advance).tsr = s.tsr := rfl
@[simp] theorem State.advance_tpsr : (s.advance).tpsr = s.tpsr := rfl
@[simp] theorem State.advance_tbcr : (s.advance).tbcr = s.tbcr := rfl
@[simp] theorem State.advance_pstart : (s.advance).pstart = s.pstart := rfl
@[simp] theorem State.advance_pstop : (s.advance).pstop = s.pstop := rfl
@[simp] theorem State.advance_bnry : (s.advance).bnry = s.bnry := rfl
@[simp] theorem State.advance_curr : (s.advance).curr = s.curr := rfl
@[simp] theorem State.advance_clda : (s.advance).clda = s.clda := rfl
@[simp] theorem State.advance_rsar : (s.advance).rsar = s.rsar := rfl
@[simp] theorem State.advance_rbcr : (s.advance).rbcr = s.rbcr := rfl
@[simp] theorem State.advance_crda : (s.advance).crda = s.crda := rfl
@[simp] theorem State.advance_par : (s.advance).par = s.par := rfl
@[simp] theorem State.advance_mar : (s.advance).mar = s.mar := rfl
@[simp] theorem State.advance_cntr0 : (s.advance).cntr0 = s.cntr0 := rfl
@[simp] theorem State.advance_cntr1 : (s.advance).cntr1 = s.cntr1 := rfl
@[simp] theorem State.advance_cntr2 : (s.advance).cntr2 = s.cntr2 := rfl
@[simp] theorem State.advance_fifo : (s.advance).fifo = s.fifo := rfl
@[simp] theorem State.advance_fifoRp : (s.advance).fifoRp = s.fifoRp := rfl
@[simp] theorem State.advance_fifoWp : (s.advance).fifoWp = s.fifoWp := rfl
@[simp] theorem State.advance_rnpp : (s.advance).rnpp = s.rnpp := rfl
@[simp] theorem State.advance_lnpp : (s.advance).lnpp = s.lnpp := rfl
@[simp] theorem State.advance_acu : (s.advance).acu = s.acu := rfl
@[simp] theorem State.advance_acl : (s.advance).acl = s.acl := rfl
@[simp] theorem State.advance_ram : (s.advance).ram = s.ram := rfl
@[simp] theorem State.advance_irqLevel : (s.advance).irqLevel = s.irqLevel := rfl
@[simp] theorem State.advance_linkUp : (s.advance).linkUp = s.linkUp := rfl
@[simp] theorem State.advance_running : (s.advance).running = s.running := rfl
@[simp] theorem State.advance_gaNim : (s.advance).gaNim = s.gaNim := rfl
@[simp] theorem State.advance_gaTcm : (s.advance).gaTcm = s.gaTcm := rfl
@[simp] theorem State.advance_gaDtc : (s.advance).gaDtc = s.gaDtc := rfl
@[simp] theorem State.advance_meme : (s.advance).meme = s.meme := rfl
@[simp] theorem State.advance_ealo : (s.advance).ealo = s.ealo := rfl
@[simp] theorem State.advance_eahi : (s.advance).eahi = s.eahi := rfl
@[simp] theorem State.advance_cfg : (s.advance).cfg = s.cfg := rfl
@[simp] theorem State.advance_inputs : (s.advance).inputs = s.inputs.tail := rfl
@[simp] theorem State.advance_netAnswers : (s.advance).netAnswers = s.netAnswers := rfl
@[simp] theorem State.advance_freeCount : (s.advance).freeCount = s.freeCount := rfl
@[simp] theorem State.advance_reply : (s.advance).reply = none := rfl
@[simp] theorem State.advance_netTx : (s.advance).netTx = s.netTx := rfl
@[simp] theorem State.advance_loopOut : (s.advance).loopOut = s.loopOut := rfl
@[simp] theorem State.advance_irqCalls : (s.advance).irqCalls = s.irqCalls := rfl

end Sys2Proof.Machine
end

