-- ==== Sys2Proof/Laws/Ops.lean ====
section
/-! SUPPORT. What each shared operation of Machine/Ops.lean can do, said once: the fields it leaves alone, the fields it
writes, and that the canonical form of local RAM is kept. -/

namespace Sys2Proof.Machine

variable (s : State)

/-! ### The aggregation pass -/

@[simp] theorem updateIrq_cr : (updateIrq s).cr = s.cr := rfl
@[simp] theorem updateIrq_imr : (updateIrq s).imr = s.imr := rfl
@[simp] theorem updateIrq_dcr : (updateIrq s).dcr = s.dcr := rfl
@[simp] theorem updateIrq_rcr : (updateIrq s).rcr = s.rcr := rfl
@[simp] theorem updateIrq_rsr : (updateIrq s).rsr = s.rsr := rfl
@[simp] theorem updateIrq_tcr : (updateIrq s).tcr = s.tcr := rfl
@[simp] theorem updateIrq_tsr : (updateIrq s).tsr = s.tsr := rfl
@[simp] theorem updateIrq_tpsr : (updateIrq s).tpsr = s.tpsr := rfl
@[simp] theorem updateIrq_tbcr : (updateIrq s).tbcr = s.tbcr := rfl
@[simp] theorem updateIrq_pstart : (updateIrq s).pstart = s.pstart := rfl
@[simp] theorem updateIrq_pstop : (updateIrq s).pstop = s.pstop := rfl
@[simp] theorem updateIrq_bnry : (updateIrq s).bnry = s.bnry := rfl
@[simp] theorem updateIrq_curr : (updateIrq s).curr = s.curr := rfl
@[simp] theorem updateIrq_clda : (updateIrq s).clda = s.clda := rfl
@[simp] theorem updateIrq_rsar : (updateIrq s).rsar = s.rsar := rfl
@[simp] theorem updateIrq_rbcr : (updateIrq s).rbcr = s.rbcr := rfl
@[simp] theorem updateIrq_crda : (updateIrq s).crda = s.crda := rfl
@[simp] theorem updateIrq_par : (updateIrq s).par = s.par := rfl
@[simp] theorem updateIrq_mar : (updateIrq s).mar = s.mar := rfl
@[simp] theorem updateIrq_cntr0 : (updateIrq s).cntr0 = s.cntr0 := rfl
@[simp] theorem updateIrq_cntr1 : (updateIrq s).cntr1 = s.cntr1 := rfl
@[simp] theorem updateIrq_cntr2 : (updateIrq s).cntr2 = s.cntr2 := rfl
@[simp] theorem updateIrq_fifo : (updateIrq s).fifo = s.fifo := rfl
@[simp] theorem updateIrq_fifoRp : (updateIrq s).fifoRp = s.fifoRp := rfl
@[simp] theorem updateIrq_fifoWp : (updateIrq s).fifoWp = s.fifoWp := rfl
@[simp] theorem updateIrq_rnpp : (updateIrq s).rnpp = s.rnpp := rfl
@[simp] theorem updateIrq_lnpp : (updateIrq s).lnpp = s.lnpp := rfl
@[simp] theorem updateIrq_acu : (updateIrq s).acu = s.acu := rfl
@[simp] theorem updateIrq_acl : (updateIrq s).acl = s.acl := rfl
@[simp] theorem updateIrq_ram : (updateIrq s).ram = s.ram := rfl
@[simp] theorem updateIrq_linkUp : (updateIrq s).linkUp = s.linkUp := rfl
@[simp] theorem updateIrq_running : (updateIrq s).running = s.running := rfl
@[simp] theorem updateIrq_gaNim : (updateIrq s).gaNim = s.gaNim := rfl
@[simp] theorem updateIrq_gaTcm : (updateIrq s).gaTcm = s.gaTcm := rfl
@[simp] theorem updateIrq_gaDtc : (updateIrq s).gaDtc = s.gaDtc := rfl
@[simp] theorem updateIrq_meme : (updateIrq s).meme = s.meme := rfl
@[simp] theorem updateIrq_ealo : (updateIrq s).ealo = s.ealo := rfl
@[simp] theorem updateIrq_eahi : (updateIrq s).eahi = s.eahi := rfl
@[simp] theorem updateIrq_cfg : (updateIrq s).cfg = s.cfg := rfl
@[simp] theorem updateIrq_inputs : (updateIrq s).inputs = s.inputs := rfl
@[simp] theorem updateIrq_netAnswers : (updateIrq s).netAnswers = s.netAnswers := rfl
@[simp] theorem updateIrq_freeCount : (updateIrq s).freeCount = s.freeCount := rfl
@[simp] theorem updateIrq_reply : (updateIrq s).reply = s.reply := rfl
@[simp] theorem updateIrq_netTx : (updateIrq s).netTx = s.netTx := rfl
@[simp] theorem updateIrq_loopOut : (updateIrq s).loopOut = s.loopOut := rfl
@[simp] theorem updateIrq_isr : (updateIrq s).isr = isrWithCnt s := rfl
@[simp] theorem updateIrq_irqLevel : (updateIrq s).irqLevel = irqLevelFor s (isrWithCnt s) := rfl

/-- `CNT` is assigned, every other bit of `ISR` is kept. -/
theorem isrWithCnt_other (k : Nat) (hk : k ≠ 5) : (isrWithCnt s).getLsbD k = s.isr.getLsbD k := by
  by_cases h8 : k < 8
  · have : k = 0 ∨ k = 1 ∨ k = 2 ∨ k = 3 ∨ k = 4 ∨ k = 6 ∨ k = 7 := by omega
    unfold isrWithCnt setBits clearBits isrCnt
    cases cntBit s <;> rcases this with rfl | rfl | rfl | rfl | rfl | rfl | rfl <;> simp
  · rw [BitVec.getLsbD_of_ge _ _ (by omega), BitVec.getLsbD_of_ge _ _ (by omega)]

theorem isrWithCnt_cnt : (isrWithCnt s).getLsbD 5 = cntBit s := by
  unfold isrWithCnt setBits clearBits isrCnt
  cases cntBit s <;> simp

/-- Away from `CNT` the pass changes nothing in `ISR`. -/
theorem isrWithCnt_or : isrWithCnt s ||| 0x20 = s.isr ||| 0x20 := by
  have h1 : ∀ i : Byte, setBits i isrCnt ||| 0x20 = i ||| 0x20 := by decide
  have h2 : ∀ i : Byte, clearBits i isrCnt ||| 0x20 = i ||| 0x20 := by decide
  unfold isrWithCnt
  cases cntBit s
  · exact h2 _
  · exact h1 _

/-- With a counter below 0x80 and `CNT` clear, the pass leaves `ISR` as it is. -/
theorem isrWithCnt_of_clear (hc : cntBit s = false) (h5 : s.isr.getLsbD 5 = false) : isrWithCnt s = s.isr := by
  have h : ∀ i : Byte, i.getLsbD 5 = false → clearBits i isrCnt = i := by decide
  unfold isrWithCnt
  rw [hc]
  exact h _ h5

/-! ### Writes of local RAM -/

/-- A write changes local RAM only, and there the byte the address decodes to. -/
theorem localWrite_eq (a : Word) (b : Byte) :
    localWrite s a b = s.withRam (match decodeLocal s.cfg.variant a with
      | some o => Memory.write s.ram o b
      | none => s.ram) := by
  unfold localWrite
  cases decodeLocal s.cfg.variant a <;> rfl

/-- A run of writes changes local RAM only. -/
theorem localWriteList_eq (a : Word) (bs : List Byte) :
    localWriteList s a bs = s.withRam (localWriteList s a bs).ram := by
  have h : ∃ m, localWriteList s a bs = s.withRam m := by
    induction bs generalizing s a with
    | nil => exact ⟨s.ram, rfl⟩
    | cons b bs ih =>
      obtain ⟨m, hm⟩ := ih (localWrite s a b) (a + 1)
      refine ⟨m, ?_⟩
      show localWriteList (localWrite s a b) (a + 1) bs = _
      rw [hm, localWrite_eq]
      rfl
  obtain ⟨m, hm⟩ := h
  rw [hm]
  rfl

@[simp] theorem localWrite_cr (a : Word) (b : Byte) : (localWrite s a b).cr = s.cr := by rw [localWrite_eq]; rfl
@[simp] theorem localWrite_isr (a : Word) (b : Byte) : (localWrite s a b).isr = s.isr := by rw [localWrite_eq]; rfl
@[simp] theorem localWrite_imr (a : Word) (b : Byte) : (localWrite s a b).imr = s.imr := by rw [localWrite_eq]; rfl
@[simp] theorem localWrite_dcr (a : Word) (b : Byte) : (localWrite s a b).dcr = s.dcr := by rw [localWrite_eq]; rfl
@[simp] theorem localWrite_rcr (a : Word) (b : Byte) : (localWrite s a b).rcr = s.rcr := by rw [localWrite_eq]; rfl
@[simp] theorem localWrite_rsr (a : Word) (b : Byte) : (localWrite s a b).rsr = s.rsr := by rw [localWrite_eq]; rfl
@[simp] theorem localWrite_tcr (a : Word) (b : Byte) : (localWrite s a b).tcr = s.tcr := by rw [localWrite_eq]; rfl
@[simp] theorem localWrite_tsr (a : Word) (b : Byte) : (localWrite s a b).tsr = s.tsr := by rw [localWrite_eq]; rfl
@[simp] theorem localWrite_tpsr (a : Word) (b : Byte) : (localWrite s a b).tpsr = s.tpsr := by rw [localWrite_eq]; rfl
@[simp] theorem localWrite_tbcr (a : Word) (b : Byte) : (localWrite s a b).tbcr = s.tbcr := by rw [localWrite_eq]; rfl
@[simp] theorem localWrite_pstart (a : Word) (b : Byte) : (localWrite s a b).pstart = s.pstart := by rw [localWrite_eq]; rfl
@[simp] theorem localWrite_pstop (a : Word) (b : Byte) : (localWrite s a b).pstop = s.pstop := by rw [localWrite_eq]; rfl
@[simp] theorem localWrite_bnry (a : Word) (b : Byte) : (localWrite s a b).bnry = s.bnry := by rw [localWrite_eq]; rfl
@[simp] theorem localWrite_curr (a : Word) (b : Byte) : (localWrite s a b).curr = s.curr := by rw [localWrite_eq]; rfl
@[simp] theorem localWrite_clda (a : Word) (b : Byte) : (localWrite s a b).clda = s.clda := by rw [localWrite_eq]; rfl
@[simp] theorem localWrite_rsar (a : Word) (b : Byte) : (localWrite s a b).rsar = s.rsar := by rw [localWrite_eq]; rfl
@[simp] theorem localWrite_rbcr (a : Word) (b : Byte) : (localWrite s a b).rbcr = s.rbcr := by rw [localWrite_eq]; rfl
@[simp] theorem localWrite_crda (a : Word) (b : Byte) : (localWrite s a b).crda = s.crda := by rw [localWrite_eq]; rfl
@[simp] theorem localWrite_par (a : Word) (b : Byte) : (localWrite s a b).par = s.par := by rw [localWrite_eq]; rfl
@[simp] theorem localWrite_mar (a : Word) (b : Byte) : (localWrite s a b).mar = s.mar := by rw [localWrite_eq]; rfl
@[simp] theorem localWrite_cntr0 (a : Word) (b : Byte) : (localWrite s a b).cntr0 = s.cntr0 := by rw [localWrite_eq]; rfl
@[simp] theorem localWrite_cntr1 (a : Word) (b : Byte) : (localWrite s a b).cntr1 = s.cntr1 := by rw [localWrite_eq]; rfl
@[simp] theorem localWrite_cntr2 (a : Word) (b : Byte) : (localWrite s a b).cntr2 = s.cntr2 := by rw [localWrite_eq]; rfl
@[simp] theorem localWrite_fifo (a : Word) (b : Byte) : (localWrite s a b).fifo = s.fifo := by rw [localWrite_eq]; rfl
@[simp] theorem localWrite_fifoRp (a : Word) (b : Byte) : (localWrite s a b).fifoRp = s.fifoRp := by rw [localWrite_eq]; rfl
@[simp] theorem localWrite_fifoWp (a : Word) (b : Byte) : (localWrite s a b).fifoWp = s.fifoWp := by rw [localWrite_eq]; rfl
@[simp] theorem localWrite_rnpp (a : Word) (b : Byte) : (localWrite s a b).rnpp = s.rnpp := by rw [localWrite_eq]; rfl
@[simp] theorem localWrite_lnpp (a : Word) (b : Byte) : (localWrite s a b).lnpp = s.lnpp := by rw [localWrite_eq]; rfl
@[simp] theorem localWrite_acu (a : Word) (b : Byte) : (localWrite s a b).acu = s.acu := by rw [localWrite_eq]; rfl
@[simp] theorem localWrite_acl (a : Word) (b : Byte) : (localWrite s a b).acl = s.acl := by rw [localWrite_eq]; rfl
@[simp] theorem localWrite_irqLevel (a : Word) (b : Byte) : (localWrite s a b).irqLevel = s.irqLevel := by rw [localWrite_eq]; rfl
@[simp] theorem localWrite_linkUp (a : Word) (b : Byte) : (localWrite s a b).linkUp = s.linkUp := by rw [localWrite_eq]; rfl
@[simp] theorem localWrite_running (a : Word) (b : Byte) : (localWrite s a b).running = s.running := by rw [localWrite_eq]; rfl
@[simp] theorem localWrite_gaNim (a : Word) (b : Byte) : (localWrite s a b).gaNim = s.gaNim := by rw [localWrite_eq]; rfl
@[simp] theorem localWrite_gaTcm (a : Word) (b : Byte) : (localWrite s a b).gaTcm = s.gaTcm := by rw [localWrite_eq]; rfl
@[simp] theorem localWrite_gaDtc (a : Word) (b : Byte) : (localWrite s a b).gaDtc = s.gaDtc := by rw [localWrite_eq]; rfl
@[simp] theorem localWrite_meme (a : Word) (b : Byte) : (localWrite s a b).meme = s.meme := by rw [localWrite_eq]; rfl
@[simp] theorem localWrite_ealo (a : Word) (b : Byte) : (localWrite s a b).ealo = s.ealo := by rw [localWrite_eq]; rfl
@[simp] theorem localWrite_eahi (a : Word) (b : Byte) : (localWrite s a b).eahi = s.eahi := by rw [localWrite_eq]; rfl
@[simp] theorem localWrite_cfg (a : Word) (b : Byte) : (localWrite s a b).cfg = s.cfg := by rw [localWrite_eq]; rfl
@[simp] theorem localWrite_inputs (a : Word) (b : Byte) : (localWrite s a b).inputs = s.inputs := by rw [localWrite_eq]; rfl
@[simp] theorem localWrite_netAnswers (a : Word) (b : Byte) : (localWrite s a b).netAnswers = s.netAnswers := by rw [localWrite_eq]; rfl
@[simp] theorem localWrite_freeCount (a : Word) (b : Byte) : (localWrite s a b).freeCount = s.freeCount := by rw [localWrite_eq]; rfl
@[simp] theorem localWrite_reply (a : Word) (b : Byte) : (localWrite s a b).reply = s.reply := by rw [localWrite_eq]; rfl
@[simp] theorem localWrite_netTx (a : Word) (b : Byte) : (localWrite s a b).netTx = s.netTx := by rw [localWrite_eq]; rfl
@[simp] theorem localWrite_loopOut (a : Word) (b : Byte) : (localWrite s a b).loopOut = s.loopOut := by rw [localWrite_eq]; rfl
@[simp] theorem localWrite_irqCalls (a : Word) (b : Byte) : (localWrite s a b).irqCalls = s.irqCalls := by rw [localWrite_eq]; rfl
@[simp] theorem localWriteList_cr (a : Word) (bs : List Byte) : (localWriteList s a bs).cr = s.cr := by rw [localWriteList_eq]; rfl
@[simp] theorem localWriteList_isr (a : Word) (bs : List Byte) : (localWriteList s a bs).isr = s.isr := by rw [localWriteList_eq]; rfl
@[simp] theorem localWriteList_imr (a : Word) (bs : List Byte) : (localWriteList s a bs).imr = s.imr := by rw [localWriteList_eq]; rfl
@[simp] theorem localWriteList_dcr (a : Word) (bs : List Byte) : (localWriteList s a bs).dcr = s.dcr := by rw [localWriteList_eq]; rfl
@[simp] theorem localWriteList_rcr (a : Word) (bs : List Byte) : (localWriteList s a bs).rcr = s.rcr := by rw [localWriteList_eq]; rfl
@[simp] theorem localWriteList_rsr (a : Word) (bs : List Byte) : (localWriteList s a bs).rsr = s.rsr := by rw [localWriteList_eq]; rfl
@[simp] theorem localWriteList_tcr (a : Word) (bs : List Byte) : (localWriteList s a bs).tcr = s.tcr := by rw [localWriteList_eq]; rfl
@[simp] theorem localWriteList_tsr (a : Word) (bs : List Byte) : (localWriteList s a bs).tsr = s.tsr := by rw [localWriteList_eq]; rfl
@[simp] theorem localWriteList_tpsr (a : Word) (bs : List Byte) : (localWriteList s a bs).tpsr = s.tpsr := by rw [localWriteList_eq]; rfl
@[simp] theorem localWriteList_tbcr (a : Word) (bs : List Byte) : (localWriteList s a bs).tbcr = s.tbcr := by rw [localWriteList_eq]; rfl
@[simp] theorem localWriteList_pstart (a : Word) (bs : List Byte) : (localWriteList s a bs).pstart = s.pstart := by rw [localWriteList_eq]; rfl
@[simp] theorem localWriteList_pstop (a : Word) (bs : List Byte) : (localWriteList s a bs).pstop = s.pstop := by rw [localWriteList_eq]; rfl
@[simp] theorem localWriteList_bnry (a : Word) (bs : List Byte) : (localWriteList s a bs).bnry = s.bnry := by rw [localWriteList_eq]; rfl
@[simp] theorem localWriteList_curr (a : Word) (bs : List Byte) : (localWriteList s a bs).curr = s.curr := by rw [localWriteList_eq]; rfl
@[simp] theorem localWriteList_clda (a : Word) (bs : List Byte) : (localWriteList s a bs).clda = s.clda := by rw [localWriteList_eq]; rfl
@[simp] theorem localWriteList_rsar (a : Word) (bs : List Byte) : (localWriteList s a bs).rsar = s.rsar := by rw [localWriteList_eq]; rfl
@[simp] theorem localWriteList_rbcr (a : Word) (bs : List Byte) : (localWriteList s a bs).rbcr = s.rbcr := by rw [localWriteList_eq]; rfl
@[simp] theorem localWriteList_crda (a : Word) (bs : List Byte) : (localWriteList s a bs).crda = s.crda := by rw [localWriteList_eq]; rfl
@[simp] theorem localWriteList_par (a : Word) (bs : List Byte) : (localWriteList s a bs).par = s.par := by rw [localWriteList_eq]; rfl
@[simp] theorem localWriteList_mar (a : Word) (bs : List Byte) : (localWriteList s a bs).mar = s.mar := by rw [localWriteList_eq]; rfl
@[simp] theorem localWriteList_cntr0 (a : Word) (bs : List Byte) : (localWriteList s a bs).cntr0 = s.cntr0 := by rw [localWriteList_eq]; rfl
@[simp] theorem localWriteList_cntr1 (a : Word) (bs : List Byte) : (localWriteList s a bs).cntr1 = s.cntr1 := by rw [localWriteList_eq]; rfl
@[simp] theorem localWriteList_cntr2 (a : Word) (bs : List Byte) : (localWriteList s a bs).cntr2 = s.cntr2 := by rw [localWriteList_eq]; rfl
@[simp] theorem localWriteList_fifo (a : Word) (bs : List Byte) : (localWriteList s a bs).fifo = s.fifo := by rw [localWriteList_eq]; rfl
@[simp] theorem localWriteList_fifoRp (a : Word) (bs : List Byte) : (localWriteList s a bs).fifoRp = s.fifoRp := by rw [localWriteList_eq]; rfl
@[simp] theorem localWriteList_fifoWp (a : Word) (bs : List Byte) : (localWriteList s a bs).fifoWp = s.fifoWp := by rw [localWriteList_eq]; rfl
@[simp] theorem localWriteList_rnpp (a : Word) (bs : List Byte) : (localWriteList s a bs).rnpp = s.rnpp := by rw [localWriteList_eq]; rfl
@[simp] theorem localWriteList_lnpp (a : Word) (bs : List Byte) : (localWriteList s a bs).lnpp = s.lnpp := by rw [localWriteList_eq]; rfl
@[simp] theorem localWriteList_acu (a : Word) (bs : List Byte) : (localWriteList s a bs).acu = s.acu := by rw [localWriteList_eq]; rfl
@[simp] theorem localWriteList_acl (a : Word) (bs : List Byte) : (localWriteList s a bs).acl = s.acl := by rw [localWriteList_eq]; rfl
@[simp] theorem localWriteList_irqLevel (a : Word) (bs : List Byte) : (localWriteList s a bs).irqLevel = s.irqLevel := by rw [localWriteList_eq]; rfl
@[simp] theorem localWriteList_linkUp (a : Word) (bs : List Byte) : (localWriteList s a bs).linkUp = s.linkUp := by rw [localWriteList_eq]; rfl
@[simp] theorem localWriteList_running (a : Word) (bs : List Byte) : (localWriteList s a bs).running = s.running := by rw [localWriteList_eq]; rfl
@[simp] theorem localWriteList_gaNim (a : Word) (bs : List Byte) : (localWriteList s a bs).gaNim = s.gaNim := by rw [localWriteList_eq]; rfl
@[simp] theorem localWriteList_gaTcm (a : Word) (bs : List Byte) : (localWriteList s a bs).gaTcm = s.gaTcm := by rw [localWriteList_eq]; rfl
@[simp] theorem localWriteList_gaDtc (a : Word) (bs : List Byte) : (localWriteList s a bs).gaDtc = s.gaDtc := by rw [localWriteList_eq]; rfl
@[simp] theorem localWriteList_meme (a : Word) (bs : List Byte) : (localWriteList s a bs).meme = s.meme := by rw [localWriteList_eq]; rfl
@[simp] theorem localWriteList_ealo (a : Word) (bs : List Byte) : (localWriteList s a bs).ealo = s.ealo := by rw [localWriteList_eq]; rfl
@[simp] theorem localWriteList_eahi (a : Word) (bs : List Byte) : (localWriteList s a bs).eahi = s.eahi := by rw [localWriteList_eq]; rfl
@[simp] theorem localWriteList_cfg (a : Word) (bs : List Byte) : (localWriteList s a bs).cfg = s.cfg := by rw [localWriteList_eq]; rfl
@[simp] theorem localWriteList_inputs (a : Word) (bs : List Byte) : (localWriteList s a bs).inputs = s.inputs := by rw [localWriteList_eq]; rfl
@[simp] theorem localWriteList_netAnswers (a : Word) (bs : List Byte) : (localWriteList s a bs).netAnswers = s.netAnswers := by rw [localWriteList_eq]; rfl
@[simp] theorem localWriteList_freeCount (a : Word) (bs : List Byte) : (localWriteList s a bs).freeCount = s.freeCount := by rw [localWriteList_eq]; rfl
@[simp] theorem localWriteList_reply (a : Word) (bs : List Byte) : (localWriteList s a bs).reply = s.reply := by rw [localWriteList_eq]; rfl
@[simp] theorem localWriteList_netTx (a : Word) (bs : List Byte) : (localWriteList s a bs).netTx = s.netTx := by rw [localWriteList_eq]; rfl
@[simp] theorem localWriteList_loopOut (a : Word) (bs : List Byte) : (localWriteList s a bs).loopOut = s.loopOut := by rw [localWriteList_eq]; rfl
@[simp] theorem localWriteList_irqCalls (a : Word) (bs : List Byte) : (localWriteList s a bs).irqCalls = s.irqCalls := by rw [localWriteList_eq]; rfl

/-- Every write keeps the canonical form. -/
theorem localWrite_wf {s : State} (h : Memory.wf s.ram = true) (a : Word) (b : Byte) :
    Memory.wf (localWrite s a b).ram = true := by
  rw [localWrite_eq]
  simp only [State.withRam]
  split
  · rename_i o ho
    exact Memory.write_wf h (decodeLocal_lt ho)
  · exact h

theorem localWriteList_wf {s : State} (h : Memory.wf s.ram = true) (a : Word) (bs : List Byte) :
    Memory.wf (localWriteList s a bs).ram = true := by
  induction bs generalizing s a with
  | nil => exact h
  | cons b bs ih => exact ih (localWrite_wf h a b) (a + 1)

theorem localWrite16_wf {s : State} (h : Memory.wf s.ram = true) (a v : Word) :
    Memory.wf (localWrite16 s a v).ram = true :=
  localWrite_wf (localWrite_wf h _ _) _ _

/-- A write stores its byte where its address decodes. -/
theorem localWrite_read_same {s : State} (h : Memory.wf s.ram = true) {a : Word} {b : Byte} {o : Nat}
    (ho : decodeLocal s.cfg.variant a = some o) : Memory.read (localWrite s a b).ram o = b := by
  rw [localWrite_eq, ho]
  exact Memory.read_write_same h

/-- A write leaves every byte alone that its address does not decode to. -/
theorem localWrite_read_other {a : Word} {b : Byte} {o : Nat} (ho : decodeLocal s.cfg.variant a ≠ some o) :
    Memory.read (localWrite s a b).ram o = Memory.read s.ram o := by
  rw [localWrite_eq]
  simp only [State.withRam]
  split
  · rename_i p hp
    exact Memory.read_write_other (fun e => ho (by rw [hp, e]))
  · rfl

/-- A run of writes leaves every byte alone that none of its addresses decodes to. -/
theorem localWriteList_read_other {a : Word} {bs : List Byte} {o : Nat}
    (ho : ∀ i, i < bs.length → decodeLocal s.cfg.variant (a + BitVec.ofNat 16 i) ≠ some o) :
    Memory.read (localWriteList s a bs).ram o = Memory.read s.ram o := by
  induction bs generalizing s a with
  | nil => rfl
  | cons b bs ih =>
    simp only [localWriteList]
    rw [ih]
    · refine localWrite_read_other s ?_
      have := ho 0 (by simp)
      simpa using this
    · intro i hi
      have := ho (i + 1) (by simpa using hi)
      rw [localWrite_cfg]
      have e : a + 1 + BitVec.ofNat 16 i = a + BitVec.ofNat 16 (i + 1) := by
        rw [BitVec.add_assoc]; congr 1; apply BitVec.eq_of_toNat_eq; simp [Nat.add_comm]
      rw [e]
      exact this

/-- Reading at a local address depends on local RAM and the configuration only. -/
theorem localRead_congr {s t : State} (hr : t.ram = s.ram) (hc : t.cfg = s.cfg) (a : Word) :
    localRead t a = localRead s a := by
  unfold localRead
  rw [hr, hc]

/-! ### Resets -/

/-- Local RAM right after a hard reset, and after `State.reset`, has the canonical form. -/
theorem hardReset_wf : Memory.wf (hardReset s).ram = true := rfl

theorem reset_wf : Memory.wf State.reset.ram = true := rfl

/-- A soft reset keeps local RAM and every pointer of remote and local DMA. -/
theorem softReset_keeps : (softReset s).ram = s.ram ∧ (softReset s).crda = s.crda ∧ (softReset s).rbcr = s.rbcr ∧
    (softReset s).rsar = s.rsar ∧ (softReset s).clda = s.clda ∧ (softReset s).curr = s.curr ∧
    (softReset s).bnry = s.bnry ∧ (softReset s).cfg = s.cfg :=
  ⟨rfl, rfl, rfl, rfl, rfl, rfl, rfl, rfl⟩

end Sys2Proof.Machine
end

