-- ==== Sys2Proof/Laws/Transmit.lean ====
section
/-! SUPPORT. What the transmit engine's parts can do, said once: the network call, the FIFO load, the path. -/

namespace Sys2Proof.Machine

variable (s : State)

/-- The network call records the frame and takes one answer, or draws one free value; nothing else. -/
theorem netTxCall_cases (frame : List Byte) :
    (∃ r rest, s.netAnswers = r :: rest ∧
      netTxCall s frame = ({ s with netTx := frame :: s.netTx, netAnswers := rest }, r)) ∨
    (s.netAnswers = [] ∧ netTxCall s frame =
      ({ s with netTx := frame :: s.netTx, freeCount := s.freeCount + 1 }, Config.freeNetTxResult s.freeCount)) := by
  unfold netTxCall
  cases h : s.netAnswers with
  | nil => exact .inr ⟨rfl, rfl⟩
  | cons r rest => exact .inl ⟨r, rest, rfl, rfl⟩

/-- The FIFO load writes the FIFO and advances its write index by the number of bytes; nothing else. -/
theorem fifoLoad_eq (bs : List Byte) :
    fifoLoad s bs =
      { s with fifo := (fifoLoad s bs).fifo, fifoWp := s.fifoWp + BitVec.ofNat 4 bs.length } := by
  have h : ∃ f, fifoLoad s bs = { s with fifo := f, fifoWp := s.fifoWp + BitVec.ofNat 4 bs.length } := by
    induction bs generalizing s with
    | nil => exact ⟨s.fifo, by simp [fifoLoad]⟩
    | cons b bs ih =>
      obtain ⟨f, hf⟩ := ih (fifoPush s b)
      refine ⟨f, ?_⟩
      have e : fifoLoad s (b :: bs) = fifoLoad (fifoPush s b) bs := rfl
      have e2 : s.fifoWp + 1 + BitVec.ofNat 4 bs.length = s.fifoWp + BitVec.ofNat 4 (b :: bs).length := by
        rw [BitVec.add_assoc]
        congr 1
        apply BitVec.eq_of_toNat_eq
        simp [Nat.add_comm]
      rw [e, hf, ← e2]
      rfl
  obtain ⟨f, hf⟩ := h
  rw [hf]

/-- Reading the FIFO after a byte is stored in it. -/
theorem fifoGet_fifoSet (f : Vector Byte 16) (i k : Nibble) (b : Byte) :
    fifoGet (fifoSet f i b) k = if k = i then b else fifoGet f k := by
  unfold fifoGet fifoSet
  split
  · rename_i h
    subst h
    simp
  · rename_i h
    rw [Vector.getElem_set_ne _ _ (fun e => h (BitVec.eq_of_toNat_eq e.symm))]

theorem fifoLoad_append (xs ys : List Byte) : fifoLoad s (xs ++ ys) = fifoLoad (fifoLoad s xs) ys :=
  List.foldl_append

/-- Counted back from the write index, the FIFO holds the last bytes of what was loaded. -/
theorem fifoLoad_get (bs : List Byte) (j : Nat) (hj : j < 16) (hb : j < bs.length) :
    fifoGet (fifoLoad s bs).fifo ((fifoLoad s bs).fifoWp - 1 - BitVec.ofNat 4 j) = bs.getD (bs.length - 1 - j) 0 := by
  induction bs using List.reverseRecOn generalizing j with
  | nil => simp at hb
  | append_singleton bs b ih =>
    rw [fifoLoad_append]
    generalize hu : fifoLoad s bs = u at *
    have e : fifoLoad u [b] = fifoPush u b := rfl
    rw [e]
    show fifoGet (fifoSet u.fifo u.fifoWp b) (u.fifoWp + 1 - 1 - BitVec.ofNat 4 j) = _
    rw [fifoGet_fifoSet]
    rcases Nat.eq_zero_or_pos j with rfl | hpos
    · have : u.fifoWp + 1 - 1 - BitVec.ofNat 4 0 = u.fifoWp := by simp
      rw [if_pos this]
      simp
    · obtain ⟨k, rfl⟩ : ∃ k, j = k + 1 := ⟨j - 1, by omega⟩
      have hstep : u.fifoWp + 1 - 1 - BitVec.ofNat 4 (k + 1) = u.fifoWp - 1 - BitVec.ofNat 4 k := by
        have : BitVec.ofNat 4 (k + 1) = BitVec.ofNat 4 k + 1 := by
          apply BitVec.eq_of_toNat_eq; simp
        rw [this]
        generalize BitVec.ofNat 4 k = x
        generalize u.fifoWp = y
        revert x y
        decide
      have hne : ¬ u.fifoWp - 1 - BitVec.ofNat 4 k = u.fifoWp := by
        intro h2
        have h3 : BitVec.ofNat 4 k = 15#4 := by
          revert h2
          generalize BitVec.ofNat 4 k = x
          generalize u.fifoWp = y
          revert x y
          decide
        have h4 := congrArg BitVec.toNat h3
        simp at h4
        omega
      have hlen : k < bs.length := by simp at hb; omega
      rw [hstep, if_neg hne, ih k (by omega) hlen]
      have e1 : (bs ++ [b]).length - 1 - (k + 1) = bs.length - 1 - k := by simp; omega
      rw [e1, List.getD_append _ _ _ _ (by omega)]

/-- A cell of the FIFO that the loaded bytes do not reach keeps its byte. -/
theorem fifoLoad_get_unreached (bs : List Byte) (k : Nibble) (h : bs.length ≤ (k - s.fifoWp).toNat) :
    fifoGet (fifoLoad s bs).fifo k = fifoGet s.fifo k := by
  induction bs generalizing s with
  | nil => rfl
  | cons b bs ih =>
    have hstep : ∀ k wp : Nibble, 1 ≤ (k - wp).toNat → (k - (wp + 1)).toNat = (k - wp).toNat - 1 ∧ k ≠ wp := by decide
    rw [List.length_cons] at h
    obtain ⟨h1, h2⟩ := hstep k s.fifoWp (by omega)
    have e : fifoLoad s (b :: bs) = fifoLoad (fifoPush s b) bs := rfl
    rw [e, ih (fifoPush s b) (by show _ ≤ (k - (s.fifoWp + 1)).toNat; omega)]
    show fifoGet (fifoSet s.fifo s.fifoWp b) k = _
    rw [fifoGet_fifoSet, if_neg h2]

/-- The network path writes `TSR` and exactly one of `ISR.PTX`, `ISR.TXE`; the rest is the call. -/
theorem networkTransmit_cases :
    (s.linkUp = false ∧ networkTransmit s = { s with tsr := tsrCol, isr := setBits s.isr isrTxe }) ∨
    (s.linkUp = true ∧ ∃ u r, netTxCall s (localReadList s (wordOf s.tpsr 0) s.tbcr.toNat) = (u, r) ∧
      networkTransmit s = { u with
        tsr := if r = .success then tsrPtx else tsrCol
        isr := setBits s.isr (if r = .success then isrPtx else isrTxe) }) := by
  unfold networkTransmit
  cases h : s.linkUp with
  | false => exact .inl ⟨rfl, rfl⟩
  | true =>
    refine .inr ⟨rfl, ?_⟩
    rcases netTxCall_cases s (localReadList s (wordOf s.tpsr 0) s.tbcr.toNat) with ⟨r, rest, -, hc⟩ | ⟨-, hc⟩
    · refine ⟨_, _, hc, ?_⟩
      simp only [hc]
      cases r <;> rfl
    · refine ⟨_, _, hc, ?_⟩
      simp only [hc]
      cases Config.freeNetTxResult s.freeCount <;> rfl

/-- The loopback path writes the FIFO and its write index, `RSR`, `TSR`, `ISR.PTX`, and emits `LOOP_OUT`. -/
theorem loopbackTransmit_eq :
    loopbackTransmit s = { s with
      rsr := loopbackStatus s (loopbackBytes s)
      tsr := setBits tsrPtx (lbStatus (tcrLb s.tcr))
      isr := setBits s.isr isrPtx
      loopOut := ⟨loopbackBytes s, loopbackStream s (loopbackBytes s)⟩ :: s.loopOut
      fifo := (loopbackTransmit s).fifo
      fifoWp := s.fifoWp + BitVec.ofNat 4 (loopbackStream s (loopbackBytes s)).length } := by
  conv => lhs; unfold loopbackTransmit
  simp only []
  rw [fifoLoad_eq]
  rfl

/-- The values of `RSR` after a loopback. -/
theorem loopbackStatus_mem (t : List Byte) : loopbackStatus s t ∈ ([0x00, 0x01, 0x02, 0x21] : List Byte) := by
  unfold loopbackStatus
  split
  · unfold loopbackChecked
    split <;> decide
  · unfold loopbackFiltered
    split
    · split <;> decide
    · decide

/-- Everything a run of the engine can do before it ends: `TSR` and its one cause, `RSR` kept or a loopback status, and
the fields of one path. -/
theorem transmitPath_cases :
    ∃ tsr rsr cause fifo wp loopOut netTx answers count,
      transmitPath s = { s with
        tsr := tsr, rsr := rsr, isr := setBits s.isr cause, fifo := fifo, fifoWp := wp, loopOut := loopOut
        netTx := netTx, netAnswers := answers, freeCount := count } ∧
      ((tsr ∈ ([0x01, 0x41, 0x51] : List Byte) ∧ cause = isrPtx) ∨
       (tsr ∈ ([0x04, 0x80] : List Byte) ∧ cause = isrTxe)) ∧
      (rsr = s.rsr ∨ rsr ∈ ([0x00, 0x01, 0x02, 0x21] : List Byte)) := by
  unfold transmitPath
  split
  · exact ⟨tsrOwc, s.rsr, isrTxe, _, _, _, _, _, _, rfl, .inr ⟨by decide, rfl⟩, .inl rfl⟩
  · split
    · have hlb : ∀ lb : BitVec 2, setBits tsrPtx (lbStatus lb) ∈ ([0x01, 0x41, 0x51] : List Byte) := by decide
      exact ⟨_, _, isrPtx, _, _, _, _, _, _, loopbackTransmit_eq s, .inl ⟨hlb _, rfl⟩,
        .inr (loopbackStatus_mem s _)⟩
    · rcases networkTransmit_cases s with ⟨-, h⟩ | ⟨-, u, r, hc, h⟩
      · exact ⟨tsrCol, s.rsr, isrTxe, _, _, _, _, _, _, h, .inr ⟨by decide, rfl⟩, .inl rfl⟩
      · rw [h]
        have hr : ((if r = .success then tsrPtx else tsrCol) ∈ ([0x01, 0x41, 0x51] : List Byte) ∧
              (if r = .success then isrPtx else isrTxe) = isrPtx) ∨
            ((if r = .success then tsrPtx else tsrCol) ∈ ([0x04, 0x80] : List Byte) ∧
              (if r = .success then isrPtx else isrTxe) = isrTxe) := by
          cases r <;> decide
        rcases netTxCall_cases s (localReadList s (wordOf s.tpsr 0) s.tbcr.toNat) with ⟨r', rest, -, hc'⟩ | ⟨-, hc'⟩
        all_goals
          rw [hc'] at hc
          obtain ⟨hu, -⟩ := Prod.mk.inj hc
          subst hu
          exact ⟨_, s.rsr, _, _, _, _, _, _, _, rfl, hr, .inl rfl⟩

end Sys2Proof.Machine
end

