-- ==== Sys2Proof/Laws/Command.lean ====
section
/-! SUPPORT. What each phase of a `CR` write can do, said once: the fields it leaves alone and the fields it writes. -/

namespace Sys2Proof.Machine

variable (s : State)

/-! ### The fields of `CR` -/

@[simp] theorem crStp_setStartStop : ∀ (c : Byte) (a b : Bool), crStp (setStartStop c a b) = a := by decide +kernel
@[simp] theorem crSta_setStartStop : ∀ (c : Byte) (a b : Bool), crSta (setStartStop c a b) = b := by decide +kernel
@[simp] theorem crTxp_setStartStop : ∀ (c : Byte) (a b : Bool), crTxp (setStartStop c a b) = crTxp c := by decide +kernel
@[simp] theorem crRd_setStartStop : ∀ (c : Byte) (a b : Bool), crRd (setStartStop c a b) = crRd c := by decide +kernel
@[simp] theorem crPs_setStartStop : ∀ (c : Byte) (a b : Bool), crPs (setStartStop c a b) = crPs c := by decide +kernel
@[simp] theorem crTxp_setTxp : ∀ (c : Byte) (a : Bool), crTxp (setTxp c a) = a := by decide +kernel
@[simp] theorem crStp_setTxp : ∀ (c : Byte) (a : Bool), crStp (setTxp c a) = crStp c := by decide +kernel
@[simp] theorem crSta_setTxp : ∀ (c : Byte) (a : Bool), crSta (setTxp c a) = crSta c := by decide +kernel
@[simp] theorem crRd_setTxp : ∀ (c : Byte) (a : Bool), crRd (setTxp c a) = crRd c := by decide +kernel
@[simp] theorem crPs_setTxp : ∀ (c : Byte) (a : Bool), crPs (setTxp c a) = crPs c := by decide +kernel
@[simp] theorem crRd_setRd : ∀ (c : Byte) (r : BitVec 3), crRd (setRd c r) = r := by decide +kernel
@[simp] theorem crStp_setRd : ∀ (c : Byte) (r : BitVec 3), crStp (setRd c r) = crStp c := by decide +kernel
@[simp] theorem crSta_setRd : ∀ (c : Byte) (r : BitVec 3), crSta (setRd c r) = crSta c := by decide +kernel
@[simp] theorem crTxp_setRd : ∀ (c : Byte) (r : BitVec 3), crTxp (setRd c r) = crTxp c := by decide +kernel
@[simp] theorem crPs_setRd : ∀ (c : Byte) (r : BitVec 3), crPs (setRd c r) = crPs c := by decide +kernel
@[simp] theorem crPs_setPs : ∀ (c : Byte) (p : BitVec 2), crPs (setPs c p) = p := by decide +kernel
@[simp] theorem crStp_setPs : ∀ (c : Byte) (p : BitVec 2), crStp (setPs c p) = crStp c := by decide +kernel
@[simp] theorem crSta_setPs : ∀ (c : Byte) (p : BitVec 2), crSta (setPs c p) = crSta c := by decide +kernel
@[simp] theorem crTxp_setPs : ∀ (c : Byte) (p : BitVec 2), crTxp (setPs c p) = crTxp c := by decide +kernel
@[simp] theorem crRd_setPs : ∀ (c : Byte) (p : BitVec 2), crRd (setPs c p) = crRd c := by decide +kernel

/-- A field written with its own value leaves `CR` as it is. -/
theorem setRd_self : ∀ c : Byte, setRd c (crRd c) = c := by decide +kernel

/-! ### The phases -/

/-- A run of the transmit engine: `TXP` cleared, `TSR` and its one cause, `RSR` kept or a loopback status, the fields of
one path, and the aggregation pass. -/
theorem txEngine_cases :
    ∃ tsr rsr cause fifo wp loopOut netTx answers count,
      txEngine s = updateIrq { s with
        cr := setTxp s.cr false
        tsr := tsr, rsr := rsr, isr := setBits s.isr cause, fifo := fifo, fifoWp := wp, loopOut := loopOut
        netTx := netTx, netAnswers := answers, freeCount := count } ∧
      ((tsr ∈ ([0x01, 0x41, 0x51] : List Byte) ∧ cause = isrPtx) ∨
       (tsr ∈ ([0x04, 0x80] : List Byte) ∧ cause = isrTxe)) ∧
      (rsr = s.rsr ∨ rsr ∈ ([0x00, 0x01, 0x02, 0x21] : List Byte)) := by
  obtain ⟨tsr, rsr, cause, fifo, wp, lo, nt, an, ct, h, h1, h2⟩ := transmitPath_cases s
  refine ⟨tsr, rsr, cause, fifo, wp, lo, nt, an, ct, ?_, h1, h2⟩
  unfold txEngine
  rw [h]
  rfl

/-- The trigger runs the engine or does nothing. -/
theorem transmitTrigger_cases (txp : Bool) :
    (transmitTrigger s txp = s ∧ (txp = false ∨ crTxp s.cr = true)) ∨
    (transmitTrigger s txp = txEngine (s.withCr (setTxp s.cr true)) ∧ txp = true ∧ crTxp s.cr = false) := by
  unfold transmitTrigger
  cases txp <;> cases h : crTxp s.cr <;> simp

/-- A remote-DMA command changes `CR.RD`, and `CRDA` and `RBCR` for a Send Packet command that is a change. -/
theorem remoteCommand_eq (rd : BitVec 3) :
    remoteCommand s rd = { s with
      cr := setRd s.cr (if rd = 0 then 4 else rd)
      crda := if rd = 3 ∧ crRd s.cr ≠ 3 then wordOf s.bnry 0 else s.crda
      rbcr := if rd = 3 ∧ crRd s.cr ≠ 3 then wordOf (localRead s (wordOf s.bnry 3)) (localRead s (wordOf s.bnry 2))
        else s.rbcr } := by
  have h3 : (if rd = 0 then (4 : BitVec 3) else rd) = 3 ↔ rd = 3 := by revert rd; decide
  unfold remoteCommand
  simp only []
  generalize (if rd = 0 then (4 : BitVec 3) else rd) = cmd at h3 ⊢
  by_cases hc : cmd = crRd s.cr
  · have hn : ¬ (rd = 3 ∧ crRd s.cr ≠ 3) := fun e => e.2 (hc ▸ h3.2 e.1)
    rw [if_pos hc, if_neg hn, if_neg hn, hc, setRd_self]
  · rw [if_neg hc]
    by_cases h : cmd = 3
    · have hp : rd = 3 ∧ crRd s.cr ≠ 3 := ⟨h3.1 h, fun e => hc (h.trans e.symm)⟩
      rw [if_pos h, if_pos hp, if_pos hp]
      rfl
    · have hn : ¬ (rd = 3 ∧ crRd s.cr ≠ 3) := fun e => h (h3.2 e.1)
      rw [if_neg h, if_neg hn, if_neg hn]
      rfl

end Sys2Proof.Machine
end

