-- ==== Sys2Proof/Laws/PerInstr.lean ====
section
/-! SUPPORT. For each instruction: its encoding has the format and the fixed bits of its row of the opcode table
(spec/30_encoding.md R102 to R106). -/

namespace Sys2Proof.Laws

/-- The encoding of a well-formed instruction matches the row of the opcode table. -/
def EncodeMatchesTable.Statement (i : Instr) : Prop :=
  WellFormed i → (encode i).fmt = i.row.fmt ∧ (encode i).bits &&& i.row.mask = i.row.pat

theorem EncodeMatchesTable.rdCr : EncodeMatchesTable.Statement .rdCr :=
  fun _ => ⟨rfl, rfl⟩
theorem EncodeMatchesTable.wrCr (d : Byte) : EncodeMatchesTable.Statement (.wrCr d) :=
  fun _ => ⟨rfl, (by decide : (0x40#7).setWidth 8 &&& 0x4F#8 = 0x40#8)⟩
theorem EncodeMatchesTable.p0rClda0 : EncodeMatchesTable.Statement .p0rClda0 :=
  fun _ => ⟨rfl, rfl⟩
theorem EncodeMatchesTable.p0rClda1 : EncodeMatchesTable.Statement .p0rClda1 :=
  fun _ => ⟨rfl, rfl⟩
theorem EncodeMatchesTable.p0rBnry : EncodeMatchesTable.Statement .p0rBnry :=
  fun _ => ⟨rfl, rfl⟩
theorem EncodeMatchesTable.p0rTsr : EncodeMatchesTable.Statement .p0rTsr :=
  fun _ => ⟨rfl, rfl⟩
theorem EncodeMatchesTable.p0rNcr : EncodeMatchesTable.Statement .p0rNcr :=
  fun _ => ⟨rfl, rfl⟩
theorem EncodeMatchesTable.p0rFifo : EncodeMatchesTable.Statement .p0rFifo :=
  fun _ => ⟨rfl, rfl⟩
theorem EncodeMatchesTable.p0rIsr : EncodeMatchesTable.Statement .p0rIsr :=
  fun _ => ⟨rfl, rfl⟩
theorem EncodeMatchesTable.p0rCrda0 : EncodeMatchesTable.Statement .p0rCrda0 :=
  fun _ => ⟨rfl, rfl⟩
theorem EncodeMatchesTable.p0rCrda1 : EncodeMatchesTable.Statement .p0rCrda1 :=
  fun _ => ⟨rfl, rfl⟩
theorem EncodeMatchesTable.p0rRsvdA : EncodeMatchesTable.Statement .p0rRsvdA :=
  fun _ => ⟨rfl, rfl⟩
theorem EncodeMatchesTable.p0rRsvdB : EncodeMatchesTable.Statement .p0rRsvdB :=
  fun _ => ⟨rfl, rfl⟩
theorem EncodeMatchesTable.p0rRsr : EncodeMatchesTable.Statement .p0rRsr :=
  fun _ => ⟨rfl, rfl⟩
theorem EncodeMatchesTable.p0rCntr0 : EncodeMatchesTable.Statement .p0rCntr0 :=
  fun _ => ⟨rfl, rfl⟩
theorem EncodeMatchesTable.p0rCntr1 : EncodeMatchesTable.Statement .p0rCntr1 :=
  fun _ => ⟨rfl, rfl⟩
theorem EncodeMatchesTable.p0rCntr2 : EncodeMatchesTable.Statement .p0rCntr2 :=
  fun _ => ⟨rfl, rfl⟩
theorem EncodeMatchesTable.p0wPstart (d : Byte) : EncodeMatchesTable.Statement (.p0wPstart d) :=
  fun _ => ⟨rfl, (by decide : (0x41#7).setWidth 8 &&& 0x7F#8 = 0x41#8)⟩
theorem EncodeMatchesTable.p0wPstop (d : Byte) : EncodeMatchesTable.Statement (.p0wPstop d) :=
  fun _ => ⟨rfl, (by decide : (0x42#7).setWidth 8 &&& 0x7F#8 = 0x42#8)⟩
theorem EncodeMatchesTable.p0wBnry (d : Byte) : EncodeMatchesTable.Statement (.p0wBnry d) :=
  fun _ => ⟨rfl, (by decide : (0x43#7).setWidth 8 &&& 0x7F#8 = 0x43#8)⟩
theorem EncodeMatchesTable.p0wTpsr (d : Byte) : EncodeMatchesTable.Statement (.p0wTpsr d) :=
  fun _ => ⟨rfl, (by decide : (0x44#7).setWidth 8 &&& 0x7F#8 = 0x44#8)⟩
theorem EncodeMatchesTable.p0wTbcr0 (d : Byte) : EncodeMatchesTable.Statement (.p0wTbcr0 d) :=
  fun _ => ⟨rfl, (by decide : (0x45#7).setWidth 8 &&& 0x7F#8 = 0x45#8)⟩
theorem EncodeMatchesTable.p0wTbcr1 (d : Byte) : EncodeMatchesTable.Statement (.p0wTbcr1 d) :=
  fun _ => ⟨rfl, (by decide : (0x46#7).setWidth 8 &&& 0x7F#8 = 0x46#8)⟩
theorem EncodeMatchesTable.p0wIsr (d : Byte) : EncodeMatchesTable.Statement (.p0wIsr d) :=
  fun _ => ⟨rfl, (by decide : (0x47#7).setWidth 8 &&& 0x7F#8 = 0x47#8)⟩
theorem EncodeMatchesTable.p0wRsar0 (d : Byte) : EncodeMatchesTable.Statement (.p0wRsar0 d) :=
  fun _ => ⟨rfl, (by decide : (0x48#7).setWidth 8 &&& 0x7F#8 = 0x48#8)⟩
theorem EncodeMatchesTable.p0wRsar1 (d : Byte) : EncodeMatchesTable.Statement (.p0wRsar1 d) :=
  fun _ => ⟨rfl, (by decide : (0x49#7).setWidth 8 &&& 0x7F#8 = 0x49#8)⟩
theorem EncodeMatchesTable.p0wRbcr0 (d : Byte) : EncodeMatchesTable.Statement (.p0wRbcr0 d) :=
  fun _ => ⟨rfl, (by decide : (0x4a#7).setWidth 8 &&& 0x7F#8 = 0x4A#8)⟩
theorem EncodeMatchesTable.p0wRbcr1 (d : Byte) : EncodeMatchesTable.Statement (.p0wRbcr1 d) :=
  fun _ => ⟨rfl, (by decide : (0x4b#7).setWidth 8 &&& 0x7F#8 = 0x4B#8)⟩
theorem EncodeMatchesTable.p0wRcr (d : Byte) : EncodeMatchesTable.Statement (.p0wRcr d) :=
  fun _ => ⟨rfl, (by decide : (0x4c#7).setWidth 8 &&& 0x7F#8 = 0x4C#8)⟩
theorem EncodeMatchesTable.p0wTcr (d : Byte) : EncodeMatchesTable.Statement (.p0wTcr d) :=
  fun _ => ⟨rfl, (by decide : (0x4d#7).setWidth 8 &&& 0x7F#8 = 0x4D#8)⟩
theorem EncodeMatchesTable.p0wDcr (d : Byte) : EncodeMatchesTable.Statement (.p0wDcr d) :=
  fun _ => ⟨rfl, (by decide : (0x4e#7).setWidth 8 &&& 0x7F#8 = 0x4E#8)⟩
theorem EncodeMatchesTable.p0wImr (d : Byte) : EncodeMatchesTable.Statement (.p0wImr d) :=
  fun _ => ⟨rfl, (by decide : (0x4f#7).setWidth 8 &&& 0x7F#8 = 0x4F#8)⟩
theorem EncodeMatchesTable.p1rPar0 : EncodeMatchesTable.Statement .p1rPar0 :=
  fun _ => ⟨rfl, rfl⟩
theorem EncodeMatchesTable.p1rPar1 : EncodeMatchesTable.Statement .p1rPar1 :=
  fun _ => ⟨rfl, rfl⟩
theorem EncodeMatchesTable.p1rPar2 : EncodeMatchesTable.Statement .p1rPar2 :=
  fun _ => ⟨rfl, rfl⟩
theorem EncodeMatchesTable.p1rPar3 : EncodeMatchesTable.Statement .p1rPar3 :=
  fun _ => ⟨rfl, rfl⟩
theorem EncodeMatchesTable.p1rPar4 : EncodeMatchesTable.Statement .p1rPar4 :=
  fun _ => ⟨rfl, rfl⟩
theorem EncodeMatchesTable.p1rPar5 : EncodeMatchesTable.Statement .p1rPar5 :=
  fun _ => ⟨rfl, rfl⟩
theorem EncodeMatchesTable.p1rCurr : EncodeMatchesTable.Statement .p1rCurr :=
  fun _ => ⟨rfl, rfl⟩
theorem EncodeMatchesTable.p1rMar0 : EncodeMatchesTable.Statement .p1rMar0 :=
  fun _ => ⟨rfl, rfl⟩
theorem EncodeMatchesTable.p1rMar1 : EncodeMatchesTable.Statement .p1rMar1 :=
  fun _ => ⟨rfl, rfl⟩
theorem EncodeMatchesTable.p1rMar2 : EncodeMatchesTable.Statement .p1rMar2 :=
  fun _ => ⟨rfl, rfl⟩
theorem EncodeMatchesTable.p1rMar3 : EncodeMatchesTable.Statement .p1rMar3 :=
  fun _ => ⟨rfl, rfl⟩
theorem EncodeMatchesTable.p1rMar4 : EncodeMatchesTable.Statement .p1rMar4 :=
  fun _ => ⟨rfl, rfl⟩
theorem EncodeMatchesTable.p1rMar5 : EncodeMatchesTable.Statement .p1rMar5 :=
  fun _ => ⟨rfl, rfl⟩
theorem EncodeMatchesTable.p1rMar6 : EncodeMatchesTable.Statement .p1rMar6 :=
  fun _ => ⟨rfl, rfl⟩
theorem EncodeMatchesTable.p1rMar7 : EncodeMatchesTable.Statement .p1rMar7 :=
  fun _ => ⟨rfl, rfl⟩
theorem EncodeMatchesTable.p1wPar0 (d : Byte) : EncodeMatchesTable.Statement (.p1wPar0 d) :=
  fun _ => ⟨rfl, (by decide : (0x51#7).setWidth 8 &&& 0x7F#8 = 0x51#8)⟩
theorem EncodeMatchesTable.p1wPar1 (d : Byte) : EncodeMatchesTable.Statement (.p1wPar1 d) :=
  fun _ => ⟨rfl, (by decide : (0x52#7).setWidth 8 &&& 0x7F#8 = 0x52#8)⟩
theorem EncodeMatchesTable.p1wPar2 (d : Byte) : EncodeMatchesTable.Statement (.p1wPar2 d) :=
  fun _ => ⟨rfl, (by decide : (0x53#7).setWidth 8 &&& 0x7F#8 = 0x53#8)⟩
theorem EncodeMatchesTable.p1wPar3 (d : Byte) : EncodeMatchesTable.Statement (.p1wPar3 d) :=
  fun _ => ⟨rfl, (by decide : (0x54#7).setWidth 8 &&& 0x7F#8 = 0x54#8)⟩
theorem EncodeMatchesTable.p1wPar4 (d : Byte) : EncodeMatchesTable.Statement (.p1wPar4 d) :=
  fun _ => ⟨rfl, (by decide : (0x55#7).setWidth 8 &&& 0x7F#8 = 0x55#8)⟩
theorem EncodeMatchesTable.p1wPar5 (d : Byte) : EncodeMatchesTable.Statement (.p1wPar5 d) :=
  fun _ => ⟨rfl, (by decide : (0x56#7).setWidth 8 &&& 0x7F#8 = 0x56#8)⟩
theorem EncodeMatchesTable.p1wCurr (d : Byte) : EncodeMatchesTable.Statement (.p1wCurr d) :=
  fun _ => ⟨rfl, (by decide : (0x57#7).setWidth 8 &&& 0x7F#8 = 0x57#8)⟩
theorem EncodeMatchesTable.p1wMar0 (d : Byte) : EncodeMatchesTable.Statement (.p1wMar0 d) :=
  fun _ => ⟨rfl, (by decide : (0x58#7).setWidth 8 &&& 0x7F#8 = 0x58#8)⟩
theorem EncodeMatchesTable.p1wMar1 (d : Byte) : EncodeMatchesTable.Statement (.p1wMar1 d) :=
  fun _ => ⟨rfl, (by decide : (0x59#7).setWidth 8 &&& 0x7F#8 = 0x59#8)⟩
theorem EncodeMatchesTable.p1wMar2 (d : Byte) : EncodeMatchesTable.Statement (.p1wMar2 d) :=
  fun _ => ⟨rfl, (by decide : (0x5a#7).setWidth 8 &&& 0x7F#8 = 0x5A#8)⟩
theorem EncodeMatchesTable.p1wMar3 (d : Byte) : EncodeMatchesTable.Statement (.p1wMar3 d) :=
  fun _ => ⟨rfl, (by decide : (0x5b#7).setWidth 8 &&& 0x7F#8 = 0x5B#8)⟩
theorem EncodeMatchesTable.p1wMar4 (d : Byte) : EncodeMatchesTable.Statement (.p1wMar4 d) :=
  fun _ => ⟨rfl, (by decide : (0x5c#7).setWidth 8 &&& 0x7F#8 = 0x5C#8)⟩
theorem EncodeMatchesTable.p1wMar5 (d : Byte) : EncodeMatchesTable.Statement (.p1wMar5 d) :=
  fun _ => ⟨rfl, (by decide : (0x5d#7).setWidth 8 &&& 0x7F#8 = 0x5D#8)⟩
theorem EncodeMatchesTable.p1wMar6 (d : Byte) : EncodeMatchesTable.Statement (.p1wMar6 d) :=
  fun _ => ⟨rfl, (by decide : (0x5e#7).setWidth 8 &&& 0x7F#8 = 0x5E#8)⟩
theorem EncodeMatchesTable.p1wMar7 (d : Byte) : EncodeMatchesTable.Statement (.p1wMar7 d) :=
  fun _ => ⟨rfl, (by decide : (0x5f#7).setWidth 8 &&& 0x7F#8 = 0x5F#8)⟩
theorem EncodeMatchesTable.p2rPstart : EncodeMatchesTable.Statement .p2rPstart :=
  fun _ => ⟨rfl, rfl⟩
theorem EncodeMatchesTable.p2rPstop : EncodeMatchesTable.Statement .p2rPstop :=
  fun _ => ⟨rfl, rfl⟩
theorem EncodeMatchesTable.p2rRnpp : EncodeMatchesTable.Statement .p2rRnpp :=
  fun _ => ⟨rfl, rfl⟩
theorem EncodeMatchesTable.p2rTpsr : EncodeMatchesTable.Statement .p2rTpsr :=
  fun _ => ⟨rfl, rfl⟩
theorem EncodeMatchesTable.p2rLnpp : EncodeMatchesTable.Statement .p2rLnpp :=
  fun _ => ⟨rfl, rfl⟩
theorem EncodeMatchesTable.p2rAcu : EncodeMatchesTable.Statement .p2rAcu :=
  fun _ => ⟨rfl, rfl⟩
theorem EncodeMatchesTable.p2rAcl : EncodeMatchesTable.Statement .p2rAcl :=
  fun _ => ⟨rfl, rfl⟩
theorem EncodeMatchesTable.p2rRsvd8 : EncodeMatchesTable.Statement .p2rRsvd8 :=
  fun _ => ⟨rfl, rfl⟩
theorem EncodeMatchesTable.p2rRsvd9 : EncodeMatchesTable.Statement .p2rRsvd9 :=
  fun _ => ⟨rfl, rfl⟩
theorem EncodeMatchesTable.p2rRsvdA : EncodeMatchesTable.Statement .p2rRsvdA :=
  fun _ => ⟨rfl, rfl⟩
theorem EncodeMatchesTable.p2rRsvdB : EncodeMatchesTable.Statement .p2rRsvdB :=
  fun _ => ⟨rfl, rfl⟩
theorem EncodeMatchesTable.p2rRcr : EncodeMatchesTable.Statement .p2rRcr :=
  fun _ => ⟨rfl, rfl⟩
theorem EncodeMatchesTable.p2rTcr : EncodeMatchesTable.Statement .p2rTcr :=
  fun _ => ⟨rfl, rfl⟩
theorem EncodeMatchesTable.p2rDcr : EncodeMatchesTable.Statement .p2rDcr :=
  fun _ => ⟨rfl, rfl⟩
theorem EncodeMatchesTable.p2rImr : EncodeMatchesTable.Statement .p2rImr :=
  fun _ => ⟨rfl, rfl⟩
theorem EncodeMatchesTable.p2wClda0 (d : Byte) : EncodeMatchesTable.Statement (.p2wClda0 d) :=
  fun _ => ⟨rfl, (by decide : (0x61#7).setWidth 8 &&& 0x7F#8 = 0x61#8)⟩
theorem EncodeMatchesTable.p2wClda1 (d : Byte) : EncodeMatchesTable.Statement (.p2wClda1 d) :=
  fun _ => ⟨rfl, (by decide : (0x62#7).setWidth 8 &&& 0x7F#8 = 0x62#8)⟩
theorem EncodeMatchesTable.p2wRnpp (d : Byte) : EncodeMatchesTable.Statement (.p2wRnpp d) :=
  fun _ => ⟨rfl, (by decide : (0x63#7).setWidth 8 &&& 0x7F#8 = 0x63#8)⟩
theorem EncodeMatchesTable.p2wRsvd4 (d : Byte) : EncodeMatchesTable.Statement (.p2wRsvd4 d) :=
  fun _ => ⟨rfl, (by decide : (0x64#7).setWidth 8 &&& 0x7F#8 = 0x64#8)⟩
theorem EncodeMatchesTable.p2wLnpp (d : Byte) : EncodeMatchesTable.Statement (.p2wLnpp d) :=
  fun _ => ⟨rfl, (by decide : (0x65#7).setWidth 8 &&& 0x7F#8 = 0x65#8)⟩
theorem EncodeMatchesTable.p2wAcu (d : Byte) : EncodeMatchesTable.Statement (.p2wAcu d) :=
  fun _ => ⟨rfl, (by decide : (0x66#7).setWidth 8 &&& 0x7F#8 = 0x66#8)⟩
theorem EncodeMatchesTable.p2wAcl (d : Byte) : EncodeMatchesTable.Statement (.p2wAcl d) :=
  fun _ => ⟨rfl, (by decide : (0x67#7).setWidth 8 &&& 0x7F#8 = 0x67#8)⟩
theorem EncodeMatchesTable.p2wRsvd8 (d : Byte) : EncodeMatchesTable.Statement (.p2wRsvd8 d) :=
  fun _ => ⟨rfl, (by decide : (0x68#7).setWidth 8 &&& 0x7F#8 = 0x68#8)⟩
theorem EncodeMatchesTable.p2wRsvd9 (d : Byte) : EncodeMatchesTable.Statement (.p2wRsvd9 d) :=
  fun _ => ⟨rfl, (by decide : (0x69#7).setWidth 8 &&& 0x7F#8 = 0x69#8)⟩
theorem EncodeMatchesTable.p2wRsvdA (d : Byte) : EncodeMatchesTable.Statement (.p2wRsvdA d) :=
  fun _ => ⟨rfl, (by decide : (0x6a#7).setWidth 8 &&& 0x7F#8 = 0x6A#8)⟩
theorem EncodeMatchesTable.p2wRsvdB (d : Byte) : EncodeMatchesTable.Statement (.p2wRsvdB d) :=
  fun _ => ⟨rfl, (by decide : (0x6b#7).setWidth 8 &&& 0x7F#8 = 0x6B#8)⟩
theorem EncodeMatchesTable.p2wRsvdC (d : Byte) : EncodeMatchesTable.Statement (.p2wRsvdC d) :=
  fun _ => ⟨rfl, (by decide : (0x6c#7).setWidth 8 &&& 0x7F#8 = 0x6C#8)⟩
theorem EncodeMatchesTable.p2wRsvdD (d : Byte) : EncodeMatchesTable.Statement (.p2wRsvdD d) :=
  fun _ => ⟨rfl, (by decide : (0x6d#7).setWidth 8 &&& 0x7F#8 = 0x6D#8)⟩
theorem EncodeMatchesTable.p2wRsvdE (d : Byte) : EncodeMatchesTable.Statement (.p2wRsvdE d) :=
  fun _ => ⟨rfl, (by decide : (0x6e#7).setWidth 8 &&& 0x7F#8 = 0x6E#8)⟩
theorem EncodeMatchesTable.p2wRsvdF (d : Byte) : EncodeMatchesTable.Statement (.p2wRsvdF d) :=
  fun _ => ⟨rfl, (by decide : (0x6f#7).setWidth 8 &&& 0x7F#8 = 0x6F#8)⟩
theorem EncodeMatchesTable.p3r01 : EncodeMatchesTable.Statement .p3r01 :=
  fun _ => ⟨rfl, rfl⟩
theorem EncodeMatchesTable.p3r02 : EncodeMatchesTable.Statement .p3r02 :=
  fun _ => ⟨rfl, rfl⟩
theorem EncodeMatchesTable.p3r03 : EncodeMatchesTable.Statement .p3r03 :=
  fun _ => ⟨rfl, rfl⟩
theorem EncodeMatchesTable.p3r04 : EncodeMatchesTable.Statement .p3r04 :=
  fun _ => ⟨rfl, rfl⟩
theorem EncodeMatchesTable.p3r05 : EncodeMatchesTable.Statement .p3r05 :=
  fun _ => ⟨rfl, rfl⟩
theorem EncodeMatchesTable.p3r06 : EncodeMatchesTable.Statement .p3r06 :=
  fun _ => ⟨rfl, rfl⟩
theorem EncodeMatchesTable.p3r07 : EncodeMatchesTable.Statement .p3r07 :=
  fun _ => ⟨rfl, rfl⟩
theorem EncodeMatchesTable.p3r08 : EncodeMatchesTable.Statement .p3r08 :=
  fun _ => ⟨rfl, rfl⟩
theorem EncodeMatchesTable.p3r09 : EncodeMatchesTable.Statement .p3r09 :=
  fun _ => ⟨rfl, rfl⟩
theorem EncodeMatchesTable.p3r0A : EncodeMatchesTable.Statement .p3r0A :=
  fun _ => ⟨rfl, rfl⟩
theorem EncodeMatchesTable.p3r0B : EncodeMatchesTable.Statement .p3r0B :=
  fun _ => ⟨rfl, rfl⟩
theorem EncodeMatchesTable.p3r0C : EncodeMatchesTable.Statement .p3r0C :=
  fun _ => ⟨rfl, rfl⟩
theorem EncodeMatchesTable.p3r0D : EncodeMatchesTable.Statement .p3r0D :=
  fun _ => ⟨rfl, rfl⟩
theorem EncodeMatchesTable.p3r0E : EncodeMatchesTable.Statement .p3r0E :=
  fun _ => ⟨rfl, rfl⟩
theorem EncodeMatchesTable.p3r0F : EncodeMatchesTable.Statement .p3r0F :=
  fun _ => ⟨rfl, rfl⟩
theorem EncodeMatchesTable.p3w01 (d : Byte) : EncodeMatchesTable.Statement (.p3w01 d) :=
  fun _ => ⟨rfl, (by decide : (0x71#7).setWidth 8 &&& 0x7F#8 = 0x71#8)⟩
theorem EncodeMatchesTable.p3w02 (d : Byte) : EncodeMatchesTable.Statement (.p3w02 d) :=
  fun _ => ⟨rfl, (by decide : (0x72#7).setWidth 8 &&& 0x7F#8 = 0x72#8)⟩
theorem EncodeMatchesTable.p3w03 (d : Byte) : EncodeMatchesTable.Statement (.p3w03 d) :=
  fun _ => ⟨rfl, (by decide : (0x73#7).setWidth 8 &&& 0x7F#8 = 0x73#8)⟩
theorem EncodeMatchesTable.p3w04 (d : Byte) : EncodeMatchesTable.Statement (.p3w04 d) :=
  fun _ => ⟨rfl, (by decide : (0x74#7).setWidth 8 &&& 0x7F#8 = 0x74#8)⟩
theorem EncodeMatchesTable.p3w05 (d : Byte) : EncodeMatchesTable.Statement (.p3w05 d) :=
  fun _ => ⟨rfl, (by decide : (0x75#7).setWidth 8 &&& 0x7F#8 = 0x75#8)⟩
theorem EncodeMatchesTable.p3w06 (d : Byte) : EncodeMatchesTable.Statement (.p3w06 d) :=
  fun _ => ⟨rfl, (by decide : (0x76#7).setWidth 8 &&& 0x7F#8 = 0x76#8)⟩
theorem EncodeMatchesTable.p3w07 (d : Byte) : EncodeMatchesTable.Statement (.p3w07 d) :=
  fun _ => ⟨rfl, (by decide : (0x77#7).setWidth 8 &&& 0x7F#8 = 0x77#8)⟩
theorem EncodeMatchesTable.p3w08 (d : Byte) : EncodeMatchesTable.Statement (.p3w08 d) :=
  fun _ => ⟨rfl, (by decide : (0x78#7).setWidth 8 &&& 0x7F#8 = 0x78#8)⟩
theorem EncodeMatchesTable.p3w09 (d : Byte) : EncodeMatchesTable.Statement (.p3w09 d) :=
  fun _ => ⟨rfl, (by decide : (0x79#7).setWidth 8 &&& 0x7F#8 = 0x79#8)⟩
theorem EncodeMatchesTable.p3w0A (d : Byte) : EncodeMatchesTable.Statement (.p3w0A d) :=
  fun _ => ⟨rfl, (by decide : (0x7a#7).setWidth 8 &&& 0x7F#8 = 0x7A#8)⟩
theorem EncodeMatchesTable.p3w0B (d : Byte) : EncodeMatchesTable.Statement (.p3w0B d) :=
  fun _ => ⟨rfl, (by decide : (0x7b#7).setWidth 8 &&& 0x7F#8 = 0x7B#8)⟩
theorem EncodeMatchesTable.p3w0C (d : Byte) : EncodeMatchesTable.Statement (.p3w0C d) :=
  fun _ => ⟨rfl, (by decide : (0x7c#7).setWidth 8 &&& 0x7F#8 = 0x7C#8)⟩
theorem EncodeMatchesTable.p3w0D (d : Byte) : EncodeMatchesTable.Statement (.p3w0D d) :=
  fun _ => ⟨rfl, (by decide : (0x7d#7).setWidth 8 &&& 0x7F#8 = 0x7D#8)⟩
theorem EncodeMatchesTable.p3w0E (d : Byte) : EncodeMatchesTable.Statement (.p3w0E d) :=
  fun _ => ⟨rfl, (by decide : (0x7e#7).setWidth 8 &&& 0x7F#8 = 0x7E#8)⟩
theorem EncodeMatchesTable.p3w0F (d : Byte) : EncodeMatchesTable.Statement (.p3w0F d) :=
  fun _ => ⟨rfl, (by decide : (0x7f#7).setWidth 8 &&& 0x7F#8 = 0x7F#8)⟩
theorem EncodeMatchesTable.crRdInvalid : EncodeMatchesTable.Statement .crRdInvalid :=
  fun _ => ⟨rfl, rfl⟩
theorem EncodeMatchesTable.crRdRead : EncodeMatchesTable.Statement .crRdRead :=
  fun _ => ⟨rfl, rfl⟩
theorem EncodeMatchesTable.crRdWrite : EncodeMatchesTable.Statement .crRdWrite :=
  fun _ => ⟨rfl, rfl⟩
theorem EncodeMatchesTable.crRdSend : EncodeMatchesTable.Statement .crRdSend :=
  fun _ => ⟨rfl, rfl⟩
theorem EncodeMatchesTable.crRdAbort (rd : BitVec 3) : EncodeMatchesTable.Statement (.crRdAbort rd) := by
  unfold EncodeMatchesTable.Statement WellFormed
  revert rd
  decide
theorem EncodeMatchesTable.crTxp : EncodeMatchesTable.Statement .crTxp :=
  fun _ => ⟨rfl, rfl⟩
theorem EncodeMatchesTable.crSta (b : Bool) : EncodeMatchesTable.Statement (.crSta b) := by
  cases b <;> exact fun _ => ⟨rfl, rfl⟩
theorem EncodeMatchesTable.crStp (b : Bool) : EncodeMatchesTable.Statement (.crStp b) := by
  cases b <;> exact fun _ => ⟨rfl, rfl⟩
theorem EncodeMatchesTable.crPs (ps : BitVec 2) : EncodeMatchesTable.Statement (.crPs ps) := by
  unfold EncodeMatchesTable.Statement WellFormed
  revert ps
  decide
theorem EncodeMatchesTable.dataRd8 : EncodeMatchesTable.Statement .dataRd8 :=
  fun _ => ⟨rfl, rfl⟩
theorem EncodeMatchesTable.dataRd16 : EncodeMatchesTable.Statement .dataRd16 :=
  fun _ => ⟨rfl, rfl⟩
theorem EncodeMatchesTable.dataWr8 (v : Byte) : EncodeMatchesTable.Statement (.dataWr8 v) :=
  fun _ => ⟨rfl, (by decide : (0x4#3).setWidth 8 &&& 0x07#8 = 0x04#8)⟩
theorem EncodeMatchesTable.dataWr16 (v : Word) : EncodeMatchesTable.Statement (.dataWr16 v) :=
  fun _ => ⟨rfl, (by decide : (0x5#3).setWidth 8 &&& 0x07#8 = 0x05#8)⟩
theorem EncodeMatchesTable.resetRd : EncodeMatchesTable.Statement .resetRd :=
  fun _ => ⟨rfl, rfl⟩
theorem EncodeMatchesTable.resetWr (v : Word) : EncodeMatchesTable.Statement (.resetWr v) :=
  fun _ => ⟨rfl, (by decide : (0x7#3).setWidth 8 &&& 0x06#8 = 0x06#8)⟩

end Sys2Proof.Laws
end

