-- ==== Sys2Proof/Laws/Ports.lean ====
section
/-! SUPPORT. What one unit of remote DMA can do, said once. -/

namespace Sys2Proof.Machine

variable (s : State)

/-- One unit moves `CRDA` and `RBCR`; where the count reaches zero it clears `CR.RD`, raises `ISR.RDC` and runs the
aggregation pass. -/
theorem dmaStep_cases :
    (rbcrNext s ≠ 0 ∧ dmaStep s = { s with crda := crdaNext s, rbcr := rbcrNext s }) ∨
    (rbcrNext s = 0 ∧ dmaStep s = updateIrq { s with
      crda := crdaNext s, rbcr := 0, cr := setRd s.cr 0, isr := setBits s.isr isrRdc }) := by
  unfold dmaStep
  simp only []
  by_cases h : rbcrNext s = 0
  · rw [if_pos h, h]
    exact .inr ⟨rfl, rfl⟩
  · rw [if_neg h]
    exact .inl ⟨h, rfl⟩

@[simp] theorem dmaStep_ram : (dmaStep s).ram = s.ram := by
  rcases dmaStep_cases s with ⟨-, h⟩ | ⟨-, h⟩ <;> rw [h] <;> rfl

@[simp] theorem dmaStep_cfg : (dmaStep s).cfg = s.cfg := by
  rcases dmaStep_cases s with ⟨-, h⟩ | ⟨-, h⟩ <;> rw [h] <;> rfl

@[simp] theorem dmaStep_dcr : (dmaStep s).dcr = s.dcr := by
  rcases dmaStep_cases s with ⟨-, h⟩ | ⟨-, h⟩ <;> rw [h] <;> rfl

@[simp] theorem dmaStep_pstart : (dmaStep s).pstart = s.pstart := by
  rcases dmaStep_cases s with ⟨-, h⟩ | ⟨-, h⟩ <;> rw [h] <;> rfl

@[simp] theorem dmaStep_pstop : (dmaStep s).pstop = s.pstop := by
  rcases dmaStep_cases s with ⟨-, h⟩ | ⟨-, h⟩ <;> rw [h] <;> rfl

@[simp] theorem dmaStep_crda : (dmaStep s).crda = crdaNext s := by
  rcases dmaStep_cases s with ⟨-, h⟩ | ⟨-, h⟩ <;> rw [h] <;> rfl

@[simp] theorem dmaStep_rbcr : (dmaStep s).rbcr = rbcrNext s := by
  rcases dmaStep_cases s with ⟨-, h⟩ | ⟨h0, h⟩
  · rw [h]
  · rw [h, h0]
    rfl

end Sys2Proof.Machine
end

