-- ==== Sys2Proof/Laws/Receive.lean ====
section
/-! SUPPORT. What the ring writer and the tail of a receive can do, said once. -/

namespace Sys2Proof.Machine

/-- A local address as a number: page times 256 plus the low byte (R9). -/
theorem wordOf_toNat (p b : Byte) : (wordOf p b).toNat = p.toNat * 256 + b.toNat := by
  unfold wordOf
  rw [BitVec.toNat_append, ← Nat.shiftLeft_add_eq_or_of_lt b.isLt, Nat.shiftLeft_eq]

theorem loByte_toNat (w : Word) : (loByte w).toNat = w.toNat % 256 := by
  simp [loByte, BitVec.extractLsb'_toNat]

theorem hiByte_toNat (w : Word) : (hiByte w).toNat = w.toNat / 256 := by
  have := w.isLt
  simp [hiByte, BitVec.extractLsb'_toNat, Nat.shiftRight_eq_div_pow]
  omega

theorem wordOf_lo (p b : Byte) : loByte (wordOf p b) = b := by
  apply BitVec.eq_of_toNat_eq
  have := b.isLt
  rw [loByte_toNat, wordOf_toNat]
  omega

theorem wordOf_hi (p b : Byte) : hiByte (wordOf p b) = p := by
  apply BitVec.eq_of_toNat_eq
  have := b.isLt
  rw [hiByte_toNat, wordOf_toNat]
  omega

theorem wordOf_hi_lo (w : Word) : wordOf (hiByte w) (loByte w) = w := by
  apply BitVec.eq_of_toNat_eq
  rw [wordOf_toNat, hiByte_toNat, loByte_toNat]
  omega

/-- Everything a run of the ring writer can do: local RAM and `CLDA` change, and on overflow `ISR.OVW`, `ISR.RST` are
set with `CLDA` at the start of page `BNRY`. Every write keeps the canonical form. -/
theorem ringLoop_cases (fuel : Nat) (s : State) (src : List Byte) (last : Bool) :
    ∃ m c, (Memory.wf s.ram = true → Memory.wf m = true) ∧
      (ringLoop fuel s src last = ({ s with ram := m, clda := c }, false) ∨
       (ringLoop fuel s src last =
          ({ s with ram := m, clda := c, isr := setBits s.isr (isrOvw ||| isrRst) }, true) ∧
        hiByte c = s.bnry ∧ loByte c = 0)) := by
  induction fuel generalizing s src with
  | zero => exact ⟨s.ram, s.clda, id, .inl rfl⟩
  | succ fuel ih =>
    unfold ringLoop
    split
    · exact ⟨s.ram, s.clda, id, .inl rfl⟩
    · simp only []
      generalize src.take (Config.pageSize - (loByte s.clda).toNat) = chunk
      generalize src.drop (Config.pageSize - (loByte s.clda).toNat) = rest
      generalize s.clda + BitVec.ofNat 16 _ = c
      have hw := localWriteList_eq s s.clda chunk
      have hwf : Memory.wf s.ram = true → Memory.wf (localWriteList s s.clda chunk).ram = true :=
        fun h => localWriteList_wf h _ _
      generalize (localWriteList s s.clda chunk).ram = m1 at hw hwf
      rw [hw]
      have hlo : loByte c = 0 → loByte (if hiByte c = s.pstop then wordOf s.pstart 0 else c) = 0 := by
        intro h0
        split
        · exact wordOf_lo _ _
        · exact h0
      generalize (if hiByte c = s.pstop then wordOf s.pstart 0 else c) = w at hlo ⊢
      split
      · rename_i h0
        split
        · rename_i hb
          exact ⟨m1, w, hwf, .inr ⟨rfl, hb, hlo h0⟩⟩
        · obtain ⟨m, c', hm, h⟩ := ih { s.withRam m1 with clda := w } rest
          exact ⟨m, c', fun hs => hm (hwf hs), h⟩
      · obtain ⟨m, c', hm, h⟩ := ih { s.withRam m1 with clda := c } rest
        exact ⟨m, c', fun hs => hm (hwf hs), h⟩

/-- A run that ends with the round-up and does not overflow leaves `CLDA` at the start of a page other than `BNRY`. -/
theorem ringLoop_last {fuel : Nat} {s : State} {src : List Byte} (hne : src ≠ []) (hf : src.length ≤ fuel)
    (hno : (ringLoop fuel s src true).2 = false) :
    loByte (ringLoop fuel s src true).1.clda = 0 ∧ hiByte (ringLoop fuel s src true).1.clda ≠ s.bnry := by
  induction fuel generalizing s src with
  | zero => exact absurd (List.length_eq_zero_iff.1 (Nat.le_zero.1 hf)) hne
  | succ fuel ih =>
    unfold ringLoop at hno ⊢
    have he : src.isEmpty = false := by simpa using hne
    simp only [he, Bool.false_eq_true, if_false] at hno ⊢
    have hroom : 0 < Config.pageSize - (loByte s.clda).toNat := by
      have := (loByte s.clda).isLt
      simp only [Config.pageSize]
      omega
    have hlen : (src.drop (Config.pageSize - (loByte s.clda).toNat)).length ≤ fuel := by
      rw [List.length_drop]
      omega
    have hround : loByte (s.clda + BitVec.ofNat 16 (Config.pageSize - (loByte s.clda).toNat)) = 0 := by
      unfold loByte Config.pageSize
      apply BitVec.eq_of_toNat_eq
      have := s.clda.isLt
      simp
      omega
    generalize hrest : src.drop (Config.pageSize - (loByte s.clda).toNat) = rest at hno hlen ⊢
    generalize src.take (Config.pageSize - (loByte s.clda).toNat) = chunk at hno ⊢
    rw [localWriteList_eq] at hno ⊢
    have hlo : ∀ c, loByte c = 0 → loByte (if hiByte c = s.pstop then wordOf s.pstart 0 else c) = 0 := by
      intro c h0
      split
      · exact wordOf_lo _ _
      · exact h0
    cases rest with
    | nil =>
      simp only [Bool.true_and, List.isEmpty_nil, if_true, hround] at hno ⊢
      have hw := hlo _ hround
      generalize (if hiByte (s.clda + _) = s.pstop then wordOf s.pstart 0 else _) = w at hno hw ⊢
      split at hno
      · exact absurd hno (by simp)
      · rename_i hb
        rw [if_neg hb]
        have hstop : ∀ u : State, ringLoop fuel u [] true = (u, false) := by
          intro u
          cases fuel <;> rfl
        rw [hstop]
        exact ⟨hw, hb⟩
    | cons x xs =>
      have hcons : (x :: xs) ≠ [] := by simp
      simp only [Bool.true_and, List.isEmpty_cons, Bool.false_eq_true, if_false] at hno ⊢
      generalize s.clda + BitVec.ofNat 16 _ = c at hno ⊢
      generalize (if hiByte c = s.pstop then wordOf s.pstart 0 else c) = w at hno ⊢
      split at hno
      · rename_i h0
        rw [if_pos h0]
        split at hno
        · exact absurd hno (by simp)
        · rename_i hb
          rw [if_neg hb]
          exact ih hcons hlen hno
      · rename_i h0
        rw [if_neg h0]
        exact ih hcons hlen hno

/-- Everything the storing of a frame can do. -/
theorem storeFrame_cases (s : State) (g : List Byte) :
    ∃ m c, (Memory.wf s.ram = true → Memory.wf m = true) ∧
      ((storeFrame s g = ({ s with ram := m, clda := c }, false) ∧ loByte c = 0 ∧ hiByte c ≠ s.bnry) ∨
       (storeFrame s g = ({ s with ram := m, clda := c, isr := setBits s.isr (isrOvw ||| isrRst) }, true) ∧
        hiByte c = s.bnry ∧ loByte c = 0)) := by
  unfold storeFrame ringWrite
  obtain ⟨m, c, hm, h | ⟨h, hb, hl⟩⟩ := ringLoop_cases g.length { s with clda := wordOf s.curr 4 } g false
  · simp only [h, Bool.false_eq_true, if_false]
    obtain ⟨m', c', hm', h' | ⟨h', hb', hl'⟩⟩ := ringLoop_cases fcsPlaceholder.length
      { { s with clda := wordOf s.curr 4 } with ram := m, clda := c } fcsPlaceholder true
    · have hlast := ringLoop_last (fuel := fcsPlaceholder.length)
        (s := { { s with clda := wordOf s.curr 4 } with ram := m, clda := c }) (src := fcsPlaceholder)
        (by decide) (Nat.le_refl _) (by rw [h'])
      rw [h'] at hlast
      exact ⟨m', c', fun hs => hm' (hm hs), .inl ⟨h', hlast⟩⟩
    · exact ⟨m', c', fun hs => hm' (hm hs), .inr ⟨h', hb', hl'⟩⟩
  · simp only [h, if_true]
    exact ⟨m, c, hm, .inr ⟨rfl, hb, hl⟩⟩

/-- The tail of a receive whose frame is intact. -/
theorem finishReceive_intact (s : State) (start rsr : Byte) (len : Nat) (h : rsrIntact rsr = true) :
    finishReceive s start rsr len = updateIrq { s with
      ram := (writeHeader s start (setBits rsr rsrPrx) (hiByte s.clda) (BitVec.ofNat 16 (len + 8))).ram
      isr := setBits s.isr isrPrx, curr := hiByte s.clda, rsr := setBits rsr rsrPrx } := by
  unfold finishReceive
  rw [if_pos h]
  simp only [writeHeader]
  rw [localWriteList_eq (raiseIsr s isrPrx)]
  have e : (localWriteList (raiseIsr s isrPrx) (wordOf start 0)
        [setBits rsr rsrPrx, hiByte s.clda, loByte (BitVec.ofNat 16 (len + 8)), hiByte (BitVec.ofNat 16 (len + 8))]).ram =
      (localWriteList s (wordOf start 0)
        [setBits rsr rsrPrx, hiByte s.clda, loByte (BitVec.ofNat 16 (len + 8)), hiByte (BitVec.ofNat 16 (len + 8))]).ram := by
    have aux : ∀ (bs : List Byte) (u v : State) (a : Word), u.ram = v.ram → u.cfg = v.cfg →
        (localWriteList u a bs).ram = (localWriteList v a bs).ram := by
      intro bs
      induction bs with
      | nil => intro u v a h _; exact h
      | cons b bs ih =>
        intro u v a hr hc
        refine ih _ _ _ ?_ ?_
        · rw [localWrite_eq, localWrite_eq, hr, hc]
          rfl
        · rw [localWrite_cfg, localWrite_cfg, hc]
    exact aux _ _ _ _ rfl rfl
  rw [e]
  rfl

/-- The tail of a receive whose frame is not intact. -/
theorem finishReceive_error (s : State) (start rsr : Byte) (len : Nat) (h : rsrIntact rsr = false) :
    finishReceive s start rsr len = updateIrq { s with isr := setBits s.isr isrRxe, rsr := rsr } := by
  unfold finishReceive
  rw [h]
  rfl

end Sys2Proof.Machine
end

