-- ==== Sys2Proof/Laws/Ring.lean ====
section
/-! SUPPORT. How far the ring writer gets in a ring that holds its pointers: the page pointer advances once for every
page end, and overflow is declared exactly when it comes to `BNRY` (spec/44_receive.md R300, R301). -/

namespace Sys2Proof.Machine

open Sys2Proof.Safety

/-- The page after `page`, wrapped from `PSTOP` to `PSTART` (R300). -/
def nextPage (s : State) (page : Byte) : Byte := if page + 1 = s.pstop then s.pstart else page + 1

/-- One advance inside the ring: it stays in the ring and comes one page nearer to `BNRY`, which it reaches exactly when
`BNRY` was the next page. -/
theorem nextPage_ring {s : State} {page : Byte} (h1 : s.pstart ≤ page) (h2 : page < s.pstop)
    (h3 : s.pstart ≤ s.bnry) (h4 : s.bnry < s.pstop) :
    s.pstart ≤ nextPage s page ∧ nextPage s page < s.pstop ∧ 1 ≤ pagesToBoundary s page ∧
    (nextPage s page = s.bnry ↔ pagesToBoundary s page = 1) ∧
    (nextPage s page ≠ s.bnry → pagesToBoundary s (nextPage s page) = pagesToBoundary s page - 1) := by
  have hstop := s.pstop.isLt
  simp only [BitVec.le_def, BitVec.lt_def] at h1 h2 h3 h4
  have hsucc : (page + 1).toNat = page.toNat + 1 := by
    rw [BitVec.toNat_add]
    exact Nat.mod_eq_of_lt (by simp; omega)
  have hnext : (nextPage s page).toNat =
      if page.toNat + 1 = s.pstop.toNat then s.pstart.toNat else page.toNat + 1 := by
    unfold nextPage
    simp only [← BitVec.toNat_inj, hsucc]
    split
    · rfl
    · exact hsucc
  unfold pagesToBoundary
  simp only [BitVec.le_def, BitVec.lt_def, ne_eq, ← BitVec.toNat_inj, hnext]
  split_ifs <;> refine ⟨?_, ?_, ?_, ?_, ?_⟩ <;> omega

/-- How often the page pointer advances while `n` bytes are written from low byte `lo`; with `last` the final page is
rounded up (R299, R300). -/
def advances (lo n : Nat) (last : Bool) : Nat :=
  if n = 0 then 0 else if last then (lo + n + 255) / 256 else (lo + n) / 256

/-- The ring writer in a ring that holds `CLDA` and `BNRY`: it overflows exactly when the page pointer comes to `BNRY`,
and otherwise ends in the ring, that many pages nearer to `BNRY`. -/
theorem ringLoop_ring (fuel : Nat) (s : State) (src : List Byte) (last : Bool) (hf : src.length ≤ fuel)
    (h1 : s.pstart ≤ hiByte s.clda) (h2 : hiByte s.clda < s.pstop) (h3 : s.pstart ≤ s.bnry) (h4 : s.bnry < s.pstop) :
    let n := advances (loByte s.clda).toNat src.length last
    let d := pagesToBoundary s (hiByte s.clda)
    let r := ringLoop fuel s src last
    (r.2 = true ↔ d ≤ n) ∧
    (r.2 = false → s.pstart ≤ hiByte r.1.clda ∧ hiByte r.1.clda < s.pstop ∧
      pagesToBoundary s (hiByte r.1.clda) = d - n ∧
      (last = false → (loByte r.1.clda).toNat = ((loByte s.clda).toNat + src.length) % 256)) := by
  induction fuel generalizing s src with
  | zero =>
    have hn : src = [] := List.length_eq_zero_iff.1 (Nat.le_zero.1 hf)
    have := (nextPage_ring h1 h2 h3 h4).2.2.1
    subst hn
    have hlo := (loByte s.clda).isLt
    simp [ringLoop, advances, h1, h2]
    omega
  | succ fuel ih =>
    have hd := nextPage_ring h1 h2 h3 h4
    have hlo : (loByte s.clda).toNat < 256 := (loByte s.clda).isLt
    by_cases hn : src = []
    · subst hn
      simp [ringLoop, advances, h1, h2]
      omega
    have hlen : 0 < src.length := List.length_pos_iff.2 hn
    have hrest : (src.drop (256 - (loByte s.clda).toNat)).length = src.length - (256 - (loByte s.clda).toNat) :=
      List.length_drop
    have hchunk : (src.take (256 - (loByte s.clda).toNat)).length = min (256 - (loByte s.clda).toNat) src.length :=
      List.length_take
    have hempty : (src.drop (256 - (loByte s.clda).toNat)).isEmpty =
        decide (src.length ≤ 256 - (loByte s.clda).toNat) := by
      rw [Bool.eq_iff_iff, List.isEmpty_iff, ← List.length_eq_zero_iff, hrest, decide_eq_true_eq]
      omega
    have hclda : s.clda.toNat = (hiByte s.clda).toNat * 256 + (loByte s.clda).toNat := by
      rw [hiByte_toNat, loByte_toNat]
      omega
    have hhi : (hiByte s.clda).toNat + 1 < 256 := by
      have := s.pstop.isLt
      have h2' := BitVec.lt_def.1 h2
      omega
    unfold ringLoop
    simp only [List.isEmpty_iff, hn, if_false, Config.pageSize]
    simp only [hempty, hchunk]
    rw [localWriteList_eq]
    generalize (localWriteList s s.clda _).ram = m
    generalize hadv : (if (last && decide (src.length ≤ 256 - (loByte s.clda).toNat)) = true then
      256 - (loByte s.clda).toNat else min (256 - (loByte s.clda).toNat) src.length) = adv
    have hadv_le : adv ≤ 256 - (loByte s.clda).toNat := by rw [← hadv]; split <;> omega
    have hsum : (s.clda + BitVec.ofNat 16 adv).toNat = s.clda.toNat + adv := by
      rw [BitVec.toNat_add, BitVec.toNat_ofNat]
      omega
    by_cases hfull : adv = 256 - (loByte s.clda).toNat
    · -- the chunk ends at a page end
      have e1 : loByte (s.clda + BitVec.ofNat 16 adv) = 0 := by
        apply BitVec.eq_of_toNat_eq
        rw [loByte_toNat, hsum, hclda, hfull]
        simp
        omega
      have e2 : hiByte (s.clda + BitVec.ofNat 16 adv) = hiByte s.clda + 1 := by
        apply BitVec.eq_of_toNat_eq
        rw [hiByte_toNat, hsum, hclda, hfull, BitVec.toNat_add]
        simp
        omega
      have e3 : hiByte (if hiByte (s.clda + BitVec.ofNat 16 adv) = s.pstop then wordOf s.pstart 0
          else s.clda + BitVec.ofNat 16 adv) = nextPage s (hiByte s.clda) := by
        rw [e2]
        unfold nextPage
        split
        · exact wordOf_hi _ _
        · exact e2
      have e4 : loByte (if hiByte (s.clda + BitVec.ofNat 16 adv) = s.pstop then wordOf s.pstart 0
          else s.clda + BitVec.ofNat 16 adv) = 0 := by
        split
        · exact wordOf_lo _ _
        · exact e1
      rw [if_pos e1]
      generalize (if hiByte (s.clda + BitVec.ofNat 16 adv) = s.pstop then wordOf s.pstart 0
          else s.clda + BitVec.ofNat 16 adv) = w at e3 e4 ⊢
      have hpages : advances (loByte s.clda).toNat src.length last =
          1 + advances 0 (src.length - (256 - (loByte s.clda).toNat)) last := by
        unfold advances
        cases last <;> simp at hadv ⊢ <;> split_ifs at * <;> omega
      rw [hpages]
      by_cases hb : hiByte w = s.bnry
      · rw [if_pos hb]
        have := hd.2.2.2.1.1 (e3 ▸ hb)
        simp only [true_iff, Bool.true_eq_false, false_implies, and_true]
        omega
      · rw [if_neg hb]
        have hd1 := hd.2.2.2.2 (e3 ▸ hb)
        have hne : pagesToBoundary s (hiByte s.clda) ≠ 1 := fun h => hb (e3 ▸ hd.2.2.2.1.2 h)
        have key := ih { s.withRam m with clda := w } (src.drop (256 - (loByte s.clda).toNat)) (by rw [hrest]; omega)
          (by show s.pstart ≤ hiByte w; rw [e3]; exact hd.1) (by show hiByte w < s.pstop; rw [e3]; exact hd.2.1) h3 h4
        have hw0 : (loByte w).toNat = 0 := by rw [e4]; rfl
        have hdw : pagesToBoundary s (hiByte w) = pagesToBoundary s (hiByte s.clda) - 1 := by rw [e3]; exact hd1
        simp only [] at key
        have hdd : ∀ p, pagesToBoundary { s.withRam m with clda := w } p = pagesToBoundary s p := fun _ => rfl
        simp only [hdd, hw0, hdw, hrest] at key
        refine ⟨key.1.trans (by omega), fun h => ?_⟩
        obtain ⟨k1, k2, k3, k4⟩ := key.2 h
        refine ⟨k1, k2, k3.trans (by omega), fun hl => (k4 hl).trans ?_⟩
        subst hl
        have : 256 - (loByte s.clda).toNat ≤ src.length := by
          simp at hadv
          omega
        omega
    · -- the chunk ends inside a page
      have hshort : last = false ∧ adv = src.length ∧ src.length < 256 - (loByte s.clda).toNat := by
        cases last
        · simp at hadv
          exact ⟨rfl, by omega, by omega⟩
        · simp at hadv
          split_ifs at hadv <;> omega
      obtain ⟨hl, ha, hs⟩ := hshort
      have e1 : loByte (s.clda + BitVec.ofNat 16 adv) ≠ 0 := by
        intro h
        have := congrArg BitVec.toNat h
        rw [loByte_toNat, hsum, hclda, ha] at this
        simp at this
        omega
      have e2 : hiByte (s.clda + BitVec.ofNat 16 adv) = hiByte s.clda := by
        apply BitVec.eq_of_toNat_eq
        rw [hiByte_toNat, hsum, hclda, ha]
        omega
      have e3 : (loByte (s.clda + BitVec.ofNat 16 adv)).toNat = (loByte s.clda).toNat + src.length := by
        rw [loByte_toNat, hsum, hclda, ha]
        omega
      have hnil : src.drop (256 - (loByte s.clda).toNat) = [] := List.drop_eq_nil_of_le (by omega)
      have hstop : ∀ u : State, ringLoop fuel u [] last = (u, false) := by
        intro u
        cases fuel <;> rfl
      rw [if_neg e1, hnil, hstop]
      have hz : advances (loByte s.clda).toNat src.length last = 0 := by
        unfold advances
        rw [hl]
        simp
        omega
      rw [hz]
      simp only [Bool.false_eq_true, false_iff, true_implies, e2, h1, h2, e3, true_and, Nat.sub_zero]
      refine ⟨by omega, fun _ => ?_⟩
      omega

/-- A frame overflows the ring exactly when it takes as many pages as there are up to `BNRY`. -/
theorem storeFrame_overflow_iff (s : State) (g : List Byte) (hg : g ≠ []) (h1 : s.pstart ≤ s.curr) (h2 : s.curr < s.pstop)
    (h3 : s.pstart ≤ s.bnry) (h4 : s.bnry < s.pstop) :
    (storeFrame s g).2 = true ↔ pagesToBoundary s s.curr ≤ (g.length + 8 + 255) / 256 := by
  have hd := (nextPage_ring h1 h2 h3 h4).2.2.1
  have hlen : 0 < g.length := List.length_pos_iff.2 hg
  have key := ringLoop_ring g.length { s with clda := wordOf s.curr 4 } g false (Nat.le_refl _)
    (by show s.pstart ≤ hiByte (wordOf s.curr 4); rwa [wordOf_hi])
    (by show hiByte (wordOf s.curr 4) < s.pstop; rwa [wordOf_hi]) h3 h4
  have hdd : ∀ (w : Word) p, pagesToBoundary { s with clda := w } p = pagesToBoundary s p := fun _ _ => rfl
  simp only [wordOf_hi, wordOf_lo, hdd] at key
  obtain ⟨m, c, -, hc⟩ := ringLoop_cases g.length { s with clda := wordOf s.curr 4 } g false
  have h4n : (4 : Byte).toNat = 4 := rfl
  have ha : advances 4 g.length false = (4 + g.length) / 256 := by
    unfold advances
    rw [if_neg (by omega)]
    rfl
  rw [h4n, ha] at key
  unfold storeFrame ringWrite
  rcases hc with hc | ⟨hc, -⟩ <;> rw [hc] at key ⊢
  · have k0 := key.1
    obtain ⟨k1, k2, k3, k4⟩ := key.2 rfl
    simp only [Bool.false_eq_true, if_false, false_iff] at k0 k1 k2 k3 k4 ⊢
    have k4 := k4 trivial
    have hu : ∃ u : State, u = { s with clda := c, ram := m } := ⟨_, rfl⟩
    obtain ⟨u, hu⟩ := hu
    have f1 : u.pstart = s.pstart := by rw [hu]
    have f2 : u.pstop = s.pstop := by rw [hu]
    have f3 : u.bnry = s.bnry := by rw [hu]
    have f4 : u.clda = c := by rw [hu]
    have hdd2 : ∀ p, pagesToBoundary u p = pagesToBoundary s p := by
      intro p
      unfold pagesToBoundary
      rw [f1, f2, f3]
    have key2 := (ringLoop_ring 4 u fcsPlaceholder true (Nat.le_refl _) (by rw [f1, f4]; exact k1)
      (by rw [f2, f4]; exact k2) (by rw [f1, f3]; exact h3) (by rw [f2, f3]; exact h4)).1
    have hl4 : fcsPlaceholder.length = 4 := rfl
    rw [hl4, ← hu, key2, hdd2, f4, k3, hl4]
    unfold advances
    simp
    omega
  · have k0 := key.1
    simp only [if_true, true_iff] at k0 ⊢
    omega

end Sys2Proof.Machine
end

