-- ==== Sys2Proof/Laws/Step.lean ====
section
/-! SUPPORT. What one step, a read of the mapped PROM and the split of a 16-bit access can do, each said once. -/

namespace Sys2Proof.Machine

/-- A read of the mapped PROM gives a reply and may draw free values; it changes nothing else. -/
theorem promRead_eq (s : State) (wide : Bool) (a : Nibble) :
    ∃ n r, promRead s wide a = { s with freeCount := n, reply := some r } := by
  unfold promRead
  cases wide <;> exact ⟨_, _, rfl⟩

/-- The ways in which a 16-bit access is split. -/
theorem splitPieces_cases (how : Split) (w : Bool) (port : Nat) (v : Word) :
    let low : Input := .access (.io w false port (v &&& 0x00FF))
    let high : Input := .access (.io w false (port + 1) (v >>> 8))
    splitPieces how w port v ∈ [[low, high], [high, low], [low], [high], []] := by
  cases how <;> simp [splitPieces]

/-- A split puts 8-bit accesses before the other operations and draws a free value; it changes nothing else. -/
theorem splitAccess_eq (s : State) (w : Bool) (port : Nat) (v : Word) :
    ∃ how, splitAccess s w port v =
      { s with inputs := splitPieces how w port v ++ s.inputs, freeCount := s.freeCount + 1 } := ⟨_, rfl⟩

/-- What an access can be: never an event, and idle never. -/
theorem fetchAccess_cases (s : State) (a : Access) :
    (∃ w d, fetchAccess s a = .instr (decodeReg w d)) ∨ (∃ w v, fetchAccess s a = .instr (decodePort w v)) ∨
    (∃ wide k, fetchAccess s a = .prom wide k) ∨ fetchAccess s a = .ignored ∨
    (∃ w port v, fetchAccess s a = .split w port v) ∨ fetchAccess s a = .refuse .wrapperRegister := by
  cases a with
  | reg w a d => exact .inl ⟨_, _, rfl⟩
  | data w wide v => exact .inr (.inl ⟨_, _, rfl⟩)
  | reset w wide v => exact .inr (.inl ⟨_, _, rfl⟩)
  | io w wide port v =>
    unfold fetchAccess
    cases wide <;> simp only [Bool.false_eq_true, if_true, if_false, fetchPort, fetchWide] <;> split
    all_goals first
      | exact .inl ⟨_, _, rfl⟩
      | exact .inr (.inl ⟨_, _, rfl⟩)
      | (split <;> first | exact .inr (.inl ⟨_, _, rfl⟩) | simp)
      | simp

/-- What a step that answers a next state did. -/
theorem step_cases {s t : State} (h : step s = .next t) :
    (fetch s = .idle ∧ t = s) ∨ (∃ i, fetch s = .instr i ∧ exec i s.advance = .next t) ∨
    (∃ e, fetch s = .event e ∧ t = applyEvent e s.advance) ∨
    (∃ wide a, fetch s = .prom wide a ∧ t = promRead s.advance wide a) ∨ (fetch s = .ignored ∧ t = s.advance) ∨
    (∃ w port v, fetch s = .split w port v ∧ t = splitAccess s.advance w port v) := by
  unfold step at h
  cases hf : fetch s <;> rw [hf] at h
  case idle => cases h; exact .inl ⟨rfl, rfl⟩
  case instr i => exact .inr (.inl ⟨i, rfl, h⟩)
  case event e => cases h; exact .inr (.inr (.inl ⟨e, rfl, rfl⟩))
  case prom wide a => cases h; exact .inr (.inr (.inr (.inl ⟨wide, a, rfl, rfl⟩)))
  case ignored => cases h; exact .inr (.inr (.inr (.inr (.inl ⟨rfl, rfl⟩))))
  case split w port v => cases h; exact .inr (.inr (.inr (.inr (.inr ⟨w, port, v, rfl, rfl⟩))))
  case refuse r => cases h

end Sys2Proof.Machine
end

