-- ==== Sys2Proof/Tests/Slice0.lean ====
section
/-! SUPPORT. Tests of one step each, and a named witness for every statement that has hypotheses. Expected values come
from spec/95_test_vectors.md (named by their V number) or from the rule named. -/

namespace Sys2Proof.Tests

open Sys2Proof Sys2Proof.Machine Sys2Proof.Safety

/-! ### Well-formedness -/

/-- Spec/30_encoding.md R105: Abort is `RD` = 4 to 7 only. -/
theorem test_wf_refuses_abort_below_four : ∀ rd : BitVec 3, rd.getLsbD 2 = false → ¬ WellFormed (.crRdAbort rd) := by
  decide

theorem test_wf_accepts_abort_four_and_seven : WellFormed (.crRdAbort 4) ∧ WellFormed (.crRdAbort 7) := by decide

/-! ### Decoding: words written out from the spec's encoding -/

/-- Source: spec/30_encoding.md R101 to R104, the words written out as `W`, `PS`, `A`. -/
theorem test_decode_cr : ∀ p ∈ ([
    (0b0000000, .rdCr), (0b0010000, .rdCr), (0b0100000, .rdCr), (0b0110000, .rdCr), (0b1000000, .wrCr 0xA5),
    (0b1010000, .wrCr 0xA5), (0b1100000, .wrCr 0xA5), (0b1110000, .wrCr 0xA5)] : List (BitVec 7 × Instr)),
    decodeReg p.1 0xA5 = p.2 := by decide

/-- Source: spec/30_encoding.md R101 to R104, the words written out as `W`, `PS`, `A`. -/
theorem test_decode_page0_reads : ∀ p ∈ ([
    (0b0000001, .p0rClda0), (0b0000010, .p0rClda1), (0b0000011, .p0rBnry), (0b0000100, .p0rTsr),
    (0b0000101, .p0rNcr), (0b0000110, .p0rFifo), (0b0000111, .p0rIsr), (0b0001000, .p0rCrda0),
    (0b0001001, .p0rCrda1), (0b0001010, .p0rRsvdA), (0b0001011, .p0rRsvdB), (0b0001100, .p0rRsr),
    (0b0001101, .p0rCntr0), (0b0001110, .p0rCntr1), (0b0001111, .p0rCntr2)] : List (BitVec 7 × Instr)),
    decodeReg p.1 0xA5 = p.2 := by decide

/-- Source: spec/30_encoding.md R101 to R104, the words written out as `W`, `PS`, `A`. -/
theorem test_decode_page0_writes : ∀ p ∈ ([
    (0b1000001, .p0wPstart 0xA5), (0b1000010, .p0wPstop 0xA5), (0b1000011, .p0wBnry 0xA5),
    (0b1000100, .p0wTpsr 0xA5), (0b1000101, .p0wTbcr0 0xA5), (0b1000110, .p0wTbcr1 0xA5),
    (0b1000111, .p0wIsr 0xA5), (0b1001000, .p0wRsar0 0xA5), (0b1001001, .p0wRsar1 0xA5),
    (0b1001010, .p0wRbcr0 0xA5), (0b1001011, .p0wRbcr1 0xA5), (0b1001100, .p0wRcr 0xA5), (0b1001101, .p0wTcr 0xA5),
    (0b1001110, .p0wDcr 0xA5), (0b1001111, .p0wImr 0xA5)] : List (BitVec 7 × Instr)),
    decodeReg p.1 0xA5 = p.2 := by decide

/-- Source: spec/30_encoding.md R101 to R104, the words written out as `W`, `PS`, `A`. -/
theorem test_decode_page1_reads : ∀ p ∈ ([
    (0b0010001, .p1rPar0), (0b0010010, .p1rPar1), (0b0010011, .p1rPar2), (0b0010100, .p1rPar3),
    (0b0010101, .p1rPar4), (0b0010110, .p1rPar5), (0b0010111, .p1rCurr), (0b0011000, .p1rMar0),
    (0b0011001, .p1rMar1), (0b0011010, .p1rMar2), (0b0011011, .p1rMar3), (0b0011100, .p1rMar4),
    (0b0011101, .p1rMar5), (0b0011110, .p1rMar6), (0b0011111, .p1rMar7)] : List (BitVec 7 × Instr)),
    decodeReg p.1 0xA5 = p.2 := by decide

/-- Source: spec/30_encoding.md R101 to R104, the words written out as `W`, `PS`, `A`. -/
theorem test_decode_page1_writes : ∀ p ∈ ([
    (0b1010001, .p1wPar0 0xA5), (0b1010010, .p1wPar1 0xA5), (0b1010011, .p1wPar2 0xA5), (0b1010100, .p1wPar3 0xA5),
    (0b1010101, .p1wPar4 0xA5), (0b1010110, .p1wPar5 0xA5), (0b1010111, .p1wCurr 0xA5), (0b1011000, .p1wMar0 0xA5),
    (0b1011001, .p1wMar1 0xA5), (0b1011010, .p1wMar2 0xA5), (0b1011011, .p1wMar3 0xA5), (0b1011100, .p1wMar4 0xA5),
    (0b1011101, .p1wMar5 0xA5), (0b1011110, .p1wMar6 0xA5), (0b1011111, .p1wMar7 0xA5)] : List (BitVec 7 × Instr)),
    decodeReg p.1 0xA5 = p.2 := by decide

/-- Source: spec/30_encoding.md R101 to R104, the words written out as `W`, `PS`, `A`. -/
theorem test_decode_page2_reads : ∀ p ∈ ([
    (0b0100001, .p2rPstart), (0b0100010, .p2rPstop), (0b0100011, .p2rRnpp), (0b0100100, .p2rTpsr),
    (0b0100101, .p2rLnpp), (0b0100110, .p2rAcu), (0b0100111, .p2rAcl), (0b0101000, .p2rRsvd8),
    (0b0101001, .p2rRsvd9), (0b0101010, .p2rRsvdA), (0b0101011, .p2rRsvdB), (0b0101100, .p2rRcr),
    (0b0101101, .p2rTcr), (0b0101110, .p2rDcr), (0b0101111, .p2rImr)] : List (BitVec 7 × Instr)),
    decodeReg p.1 0xA5 = p.2 := by decide

/-- Source: spec/30_encoding.md R101 to R104, the words written out as `W`, `PS`, `A`. -/
theorem test_decode_page2_writes : ∀ p ∈ ([
    (0b1100001, .p2wClda0 0xA5), (0b1100010, .p2wClda1 0xA5), (0b1100011, .p2wRnpp 0xA5),
    (0b1100100, .p2wRsvd4 0xA5), (0b1100101, .p2wLnpp 0xA5), (0b1100110, .p2wAcu 0xA5), (0b1100111, .p2wAcl 0xA5),
    (0b1101000, .p2wRsvd8 0xA5), (0b1101001, .p2wRsvd9 0xA5), (0b1101010, .p2wRsvdA 0xA5),
    (0b1101011, .p2wRsvdB 0xA5), (0b1101100, .p2wRsvdC 0xA5), (0b1101101, .p2wRsvdD 0xA5),
    (0b1101110, .p2wRsvdE 0xA5), (0b1101111, .p2wRsvdF 0xA5)] : List (BitVec 7 × Instr)),
    decodeReg p.1 0xA5 = p.2 := by decide

/-- Source: spec/30_encoding.md R101 to R104, the words written out as `W`, `PS`, `A`. -/
theorem test_decode_page3_reads : ∀ p ∈ ([
    (0b0110001, .p3r01), (0b0110010, .p3r02), (0b0110011, .p3r03), (0b0110100, .p3r04), (0b0110101, .p3r05),
    (0b0110110, .p3r06), (0b0110111, .p3r07), (0b0111000, .p3r08), (0b0111001, .p3r09), (0b0111010, .p3r0A),
    (0b0111011, .p3r0B), (0b0111100, .p3r0C), (0b0111101, .p3r0D), (0b0111110, .p3r0E), (0b0111111, .p3r0F)] : List (BitVec 7 × Instr)),
    decodeReg p.1 0xA5 = p.2 := by decide

/-- Source: spec/30_encoding.md R101 to R104, the words written out as `W`, `PS`, `A`. -/
theorem test_decode_page3_writes : ∀ p ∈ ([
    (0b1110001, .p3w01 0xA5), (0b1110010, .p3w02 0xA5), (0b1110011, .p3w03 0xA5), (0b1110100, .p3w04 0xA5),
    (0b1110101, .p3w05 0xA5), (0b1110110, .p3w06 0xA5), (0b1110111, .p3w07 0xA5), (0b1111000, .p3w08 0xA5),
    (0b1111001, .p3w09 0xA5), (0b1111010, .p3w0A 0xA5), (0b1111011, .p3w0B 0xA5), (0b1111100, .p3w0C 0xA5),
    (0b1111101, .p3w0D 0xA5), (0b1111110, .p3w0E 0xA5), (0b1111111, .p3w0F 0xA5)] : List (BitVec 7 × Instr)),
    decodeReg p.1 0xA5 = p.2 := by decide

/-- Source: spec/30_encoding.md R105, the fields of the byte written out; V30-7 to V30-13. -/
theorem test_decode_command_bytes :
    decodeCrval 0b00100010 = [.crSta true, .crStp false, .crRdAbort 4, .crPs 0] ∧
    decodeCrval 0b00001010 = [.crSta true, .crStp false, .crRdRead, .crPs 0] ∧
    decodeCrval 0b00010010 = [.crSta true, .crStp false, .crRdWrite, .crPs 0] ∧
    decodeCrval 0b00011010 = [.crSta true, .crStp false, .crRdSend, .crPs 0] ∧
    decodeCrval 0b00100110 = [.crSta true, .crStp false, .crTxp, .crRdAbort 4, .crPs 0] ∧
    decodeCrval 0b01100001 = [.crSta false, .crStp true, .crRdAbort 4, .crPs 1] ∧
    decodeCrval 0b11000000 = [.crSta false, .crStp false, .crRdInvalid, .crPs 3] ∧
    decodeCrval 0b00111000 = [.crSta false, .crStp false, .crRdAbort 7, .crPs 0] := by decide

/-- Source: spec/30_encoding.md R106, `W`, `P`, `S` written out. -/
theorem test_decode_port_words :
    decodePort 0b000 0 = .dataRd8 ∧ decodePort 0b001 0 = .dataRd16 ∧ decodePort 0b100 0x00AB = .dataWr8 0xAB ∧
    decodePort 0b101 0x2211 = .dataWr16 0x2211 ∧ decodePort 0b010 0 = .resetRd ∧ decodePort 0b011 0 = .resetRd ∧
    decodePort 0b110 0 = .resetWr 0 ∧ decodePort 0b111 0x2211 = .resetWr 0x2211 := by decide

/-- Source: V30-2, V30-3 as bytes; a port write as bytes is the model's form (log 2). -/
theorem test_decode_bytes :
    decodeTableWord 8 0x07 = some .p0rIsr ∧ decodeTableWord 16 0x4657 = some (.p1wCurr 0x46) ∧
    decodeTableWord 24 0x221185 = some (.dataWr16 0x2211) ∧ decodeTableWord 16 0xAB84 = some (.dataWr8 0xAB) := by decide

/-- Bytes that are no access are rejected by name (log 2). -/
theorem test_decode_rejects :
    decodeBytes [] = .error .noWord ∧ decodeBytes [0x88] = .error .reservedBits ∧
    decodeBytes [0x40] = .error .missingData ∧ decodeBytes [0x85, 0x11] = .error .missingData := by decide

/-! ### Helpers -/

/-- Whether an outcome is a next state with a property. -/
def nextHas (o : Host.Outcome State Fault Refusal) (p : State → Bool) : Bool :=
  match o with
  | .next t => p t
  | .fault _ | .refused _ => false

/-- Local RAM with bytes from an offset on. -/
def fill : Nat → List Byte → Memory → Memory
  | _, [], m => m
  | o, b :: bs, m => fill (o + 1) bs (Memory.write m o b)

/-- The started core of spec/95_test_vectors.md `INIT()`: ring 0x46 to 0x80. -/
def started : State := { State.reset with
  cr := 0x22, isr := 0x00, imr := 0x3F, pstart := 0x46, pstop := 0x80, bnry := 0x50, curr := 0x46
  par := #v[0x52, 0x54, 0x00, 0x12, 0x34, 0x56] }

/-- The first 14 bytes of `FRAME(MAC, L)` of spec/95_test_vectors.md. -/
def frameToMac : List Byte := [0x52, 0x54, 0x00, 0x12, 0x34, 0x56, 0x02, 0x00, 0x00, 0x00, 0x00, 0x01, 0x08, 0x00]

/-- A frame to the broadcast address. -/
def frameToAll : List Byte := [0xFF, 0xFF, 0xFF, 0xFF, 0xFF, 0xFF, 0x02, 0x00, 0x00, 0x00, 0x00, 0x01, 0x08, 0x00]

/-- The state with one access to come. -/
def withAccess (s : State) (a : Access) : State := { s with inputs := [.access a] }

/-- The state with one event to come. -/
def withEvent (s : State) (e : Event) : State := { s with inputs := [.event e] }

/-! ### Register accesses -/

/-- V40-1. -/
theorem test_reads_after_reset :
    ([.rdCr, .p0rClda0, .p0rClda1, .p0rBnry, .p0rTsr, .p0rNcr, .p0rFifo, .p0rIsr, .p0rCrda0, .p0rCrda1, .p0rRsvdA,
      .p0rRsvdB, .p0rRsr, .p0rCntr0, .p0rCntr1, .p0rCntr2] : List Instr).map
      (fun i => match exec i State.reset with | .next t => t.reply | _ => none) =
    ([0x21, 0, 0, 0, 0, 0, 0, 0x80, 0, 0, 0xFF, 0xFF, 0, 0, 0, 0] : List Byte).map (fun b => some (.byte b)) := by decide

/-- V40-16: the FIFO read index advances; it wraps modulo 16 (spec/00_scope.md R10). -/
theorem test_fifo_read_wraps :
    nextHas (exec .p0rFifo { State.reset with fifoRp := 15, fifo := State.reset.fifo.set 15 0x7E })
      (fun t => t.reply = some (.byte 0x7E) ∧ t.fifoRp = 0) = true := by decide

/-- V40-3: only the high half is copied. -/
theorem test_rsar1_write_reaches_crda :
    nextHas (exec (.p0wRsar1 0x40) { State.reset with crda := 0x1234, rsar := 0x0056 })
      (fun t => t.rsar = 0x4056 ∧ t.crda = 0x4034) = true := by decide

/-- V40-5. -/
theorem test_tbcr1_write : nextHas (exec (.p0wTbcr1 0x06) { State.reset with tbcr := 0x0001 })
    (fun t => t.tbcr = 0x0601) = true := by decide

/-- V40-6. -/
theorem test_isr_bit7_not_cleared_by_writing :
    nextHas (exec (.p0wIsr 0xFF) { State.reset with isr := 0xFF }) (fun t => t.isr = 0x80) = true := by decide

/-- V40-7. -/
theorem test_imr_write_raises_line :
    nextHas (exec (.p0wImr 0x01) { State.reset with isr := 0x5F })
      (fun t => t.irqLevel = true ∧ t.irqCalls = [⟨3, true⟩]) = true := by decide

/-- V40-8, V60-4: the acknowledge drops the line only when no enabled cause is left. -/
theorem test_acknowledge_drops_line :
    nextHas (exec (.p0wIsr 0x01) { State.reset with isr := 0x5F, imr := 0x01, irqLevel := true })
      (fun t => t.isr = 0x5E ∧ t.irqLevel = false ∧ t.irqCalls = [⟨3, false⟩]) = true ∧
    nextHas (exec (.p0wIsr 0x01) { State.reset with isr := 0x03, imr := 0x3F, irqLevel := true })
      (fun t => t.isr = 0x02 ∧ t.irqLevel = true ∧ t.irqCalls = []) = true := by decide

/-- V40-9. -/
theorem test_masked_writes :
    nextHas (exec (.p0wRcr 0xFF) State.reset) (fun t => t.rcr = 0x3F) = true ∧
    nextHas (exec (.p0wTcr 0xFF) State.reset) (fun t => t.tcr = 0x1F) = true ∧
    nextHas (exec (.p0wDcr 0xFF) State.reset) (fun t => t.dcr = 0x7F) = true ∧
    nextHas (exec (.p0wImr 0xFF) State.reset) (fun t => t.imr = 0x7F ∧ t.irqLevel = false) = true := by decide

/-- V40-12, V40-13: reading a counter clears it, and `CNT` with it. -/
theorem test_counter_read_clears_cnt :
    nextHas (exec .p0rCntr0 { State.reset with
        cntr0 := 0x80, cntr1 := 0x80, cntr2 := 0x80, imr := 0x20, isr := 0xA0, irqLevel := true })
      (fun t => t.reply = some (.byte 0x80) ∧ t.cntr0 = 0 ∧ t.isr = 0x80 ∧ t.irqLevel = false) = true := by decide

/-- V40-12, V40-14: `CNT` is the AND of the three top bits. -/
theorem test_cnt_is_and :
    (updateIrq { State.reset with cntr0 := 0x80, cntr1 := 0x80, cntr2 := 0x80, imr := 0x20 }).isr = 0xA0 ∧
    (updateIrq { State.reset with cntr0 := 0x80, cntr1 := 0x80, cntr2 := 0x00, imr := 0x20 }).isr = 0x80 := by decide

/-- V41-7, filter byte 3 and `CURR`. -/
theorem test_page1_storage :
    nextHas (exec (.p1wMar3 0x80) State.reset) (fun t => t.mar.toList = [0, 0, 0, 0x80, 0, 0, 0, 0]) = true ∧
    nextHas (exec (.p1wPar5 0x56) State.reset) (fun t => t.par.toList = [0, 0, 0, 0, 0, 0x56]) = true ∧
    nextHas (exec (.p1wCurr 0x46) State.reset) (fun t => t.curr = 0x46 ∧ t.isr = 0x80) = true := by decide

/-- V41-5: the page-2 writes that store, and the one at offset 4 that does not. -/
theorem test_page2_writes :
    nextHas (exec (.p2wClda0 0x34) { State.reset with clda := 0x12FF }) (fun t => t.clda = 0x1234) = true ∧
    nextHas (exec (.p2wRsvd4 0x99) { State.reset with tpsr := 0x40 }) (fun t => t.tpsr = 0x40) = true ∧
    nextHas (exec (.p2wRsvdF 0x00) { State.reset with imr := 0x7F }) (fun t => t.imr = 0x7F) = true := by decide

/-! ### The command register -/

/-- V42-1, lines 1 to 7. -/
theorem test_start_stop_lines :
    nextHas (exec (.wrCr 0x22) State.reset) (fun t => t.cr = 0x22 ∧ t.isr = 0x00) = true ∧
    nextHas (exec (.wrCr 0x21) { State.reset with cr := 0x22, isr := 0 }) (fun t => t.cr = 0x21 ∧ t.isr = 0x80) = true ∧
    nextHas (exec (.wrCr 0x20) State.reset) (fun t => t.cr = 0x20 ∧ t.isr = 0x80) = true ∧
    nextHas (exec (.wrCr 0x22) { State.reset with cr := 0x20 }) (fun t => t.cr = 0x22 ∧ t.isr = 0x00) = true ∧
    nextHas (exec (.wrCr 0x23) { State.reset with cr := 0x22, isr := 0 }) (fun t => t.cr = 0x23 ∧ t.isr = 0x80) = true ∧
    nextHas (exec (.wrCr 0x02) { State.reset with cr := 0x23 }) (fun t => t.cr = 0x22 ∧ t.isr = 0x00) = true ∧
    nextHas (exec (.wrCr 0x00) { State.reset with cr := 0x22, isr := 0 }) (fun t => t.cr = 0x20 ∧ t.isr = 0x00) = true := by
  decide

/-- V42-5: Send Packet takes the count from the header at `BNRY`. -/
theorem test_send_packet_setup :
    nextHas (exec (.wrCr 0x1A) { started with bnry := 0x46, ram := fill 0x0600 [0x01, 0x47, 0x44, 0x00] [] })
      (fun t => t.cr = 0x1A ∧ t.crda = 0x4600 ∧ t.rbcr = 0x0044 ∧ t.rsar = 0) = true := by decide

/-- V42-8: the transmit runs although `STP` = 1 (3 bytes for 60); V45-1: one `NET_TX`, `TSR` = 0x01. -/
theorem test_transmit_while_stopped :
    nextHas (exec (.wrCr 0x25) { State.reset with
        tpsr := 0x40, tbcr := 3, ram := fill 0 [1, 2, 3] [], netAnswers := [.success] })
      (fun t => t.cr = 0x21 ∧ t.tsr = 0x01 ∧ t.isr = 0x82 ∧ t.netTx = [[1, 2, 3]]) = true := by decide

/-- V45-3, V45-4: link down, giant. -/
theorem test_transmit_failures :
    nextHas (exec (.wrCr 0x26) { started with linkUp := false, tbcr := 60 })
      (fun t => t.tsr = 0x04 ∧ t.isr = 0x08 ∧ t.cr = 0x22 ∧ t.netTx = []) = true ∧
    nextHas (exec (.wrCr 0x26) { started with tbcr := 0x0601 })
      (fun t => t.tsr = 0x80 ∧ t.isr = 0x08 ∧ t.cr = 0x22 ∧ t.netTx = []) = true := by decide

/-- V45-21: fewer than six bytes match nothing, the FCS is appended. -/
theorem test_loopback_short :
    nextHas (exec (.wrCr 0x26) { started with
        tcr := 0x02, tpsr := 0x40, tbcr := 5, ram := fill 0 [0x52, 0x54, 0x00, 0x12, 0x34] [] })
      (fun t => t.rsr = 0x00 ∧ t.tsr = 0x51 ∧ t.isr = 0x02 ∧
        t.loopOut = [⟨[0x52, 0x54, 0x00, 0x12, 0x34], [0x52, 0x54, 0x00, 0x12, 0x34, 0x25, 0x77, 0xDE, 0x99]⟩]) = true := by
  decide +kernel

/-- V45-9: word mode takes every other byte. -/
theorem test_loopback_word_mode :
    nextHas (exec (.wrCr 0x26) { State.reset with
        cr := 0x22, isr := 0, dcr := 0x01, tcr := 0x02, tpsr := 0x40, tbcr := 20
        ram := fill 0 [0xA0, 0xA1, 0xA2, 0xA3, 0xA4, 0xA5, 0xA6, 0xA7, 0xA8, 0xA9, 0xAA, 0xAB, 0xAC, 0xAD, 0xAE, 0xAF,
          0xB0, 0xB1, 0xB2, 0xB3] [] })
      (fun t => t.fifoWp = 14 ∧ t.tsr = 0x51 ∧ t.rsr = 0x00 ∧ t.fifo.toList =
        [0xA0, 0xA2, 0xA4, 0xA6, 0xA8, 0xAA, 0xAC, 0xAE, 0xB0, 0xB2, 0x94, 0x79, 0xD5, 0x50, 0x00, 0x00]) = true := by
  decide +kernel

/-! ### The data port and the reset port -/

/-- V43-1. -/
theorem test_data_write_last_byte :
    nextHas (exec (.dataWr8 0xAB) { State.reset with cr := 0x12, isr := 0, crda := 0x4010, rbcr := 1 })
      (fun t => t.ram = [(0x0010, 0xAB)] ∧ t.cr = 0x02 ∧ t.isr = 0x40 ∧ t.crda = 0x4011 ∧ t.rbcr = 0) = true := by decide

/-- V43-2. -/
theorem test_data_port_disabled :
    nextHas (exec .dataRd16 { State.reset with cr := 0x02 }) (fun t => t.reply = some (.word 0xFFFF)) = true ∧
    nextHas (exec (.dataWr8 0x55) { State.reset with cr := 0x02 }) (fun t => t = { State.reset with cr := 0x02 }) = true := by
  decide

/-- V43-4: the odd final count of a word transfer. -/
theorem test_data_write_odd_word :
    nextHas (exec (.dataWr16 0x4433) { State.reset with cr := 0x12, isr := 0, dcr := 0x01, crda := 0x4002, rbcr := 1 })
      (fun t => t.ram = [(2, 0x33), (3, 0x44)] ∧ t.cr = 0x02 ∧ t.isr = 0x40 ∧ t.crda = 0x4004 ∧ t.rbcr = 0) = true := by
  decide

/-- V43-5, second write: `CRDA` wraps from `PSTOP` to `PSTART`. -/
theorem test_crda_wraps :
    nextHas (exec (.dataWr8 0x02) { started with cr := 0x12, crda := 0x7FFF, rbcr := 3 })
      (fun t => t.crda = 0x4600 ∧ t.rbcr = 2 ∧ t.cr = 0x12 ∧ t.ram = [(0x3FFF, 2)]) = true := by decide

/-- V43-7: a count of zero is 65536. -/
theorem test_count_zero_runs_on :
    nextHas (exec .dataRd8 { State.reset with cr := 0x0A, isr := 0, crda := 0x4000 })
      (fun t => t.rbcr = 0xFFFF ∧ t.crda = 0x4001 ∧ t.cr = 0x0A ∧ t.isr = 0 ∧ t.reply = some (.byte 0x00)) = true := by decide

/-- V43-13: each byte of a word is decoded on its own. -/
theorem test_word_read_half_undecoded :
    nextHas (exec .dataRd16 { State.reset with
        cr := 0x0A, dcr := 0x01, crda := 0x7FFF, rbcr := 2, ram := [(0x3FFF, 0x11)] })
      (fun t => t.reply = some (.word 0xFF11) ∧ t.crda = 0x8001) = true := by decide

/-- V43-11, V43-12: the decode of the other variants. -/
theorem test_decode_variants :
    decodeLocal .ne1000 0x6010 = some 0x10 ∧ decodeLocal .ne1000 0x1010 = none ∧ decodeLocal .ne1000 0x4010 = none ∧
    decodeLocal .wd8013 0x4010 = some 0x10 ∧ decodeLocal .ne2000 0xC010 = some 0x10 := by decide

/-- Spec/43_remote_dma.md R253. -/
theorem test_wrong_width_refused :
    exec .dataRd8 { State.reset with cr := 0x0A, dcr := 0x01 } = .refused .dataPortWidth := rfl

/-- V43-9. -/
theorem test_reset_write :
    nextHas (exec (.resetWr 0) { started with isr := 0x01, imr := 0x3F, dcr := 0x4D, tcr := 0x06, irqLevel := true })
      (fun t => t.cr = 0x21 ∧ t.isr = 0x81 ∧ t.imr = 0 ∧ t.dcr = 0x49 ∧ t.tcr = 0 ∧ t.irqLevel = false ∧
        t.irqCalls = [⟨3, false⟩] ∧ t.pstart = 0x46 ∧ t.curr = 0x46) = true := by decide

/-- V43-9 by a read: the same state, some byte. -/
theorem test_reset_read :
    nextHas (exec .resetRd { started with isr := 0x01, dcr := 0x4D }) (fun t => t.cr = 0x21 ∧ t.isr = 0x81 ∧
      t.dcr = 0x49 ∧ t.reply.isSome) = true := by decide

/-! ### Events -/

/-- V44-1, `L` = 14. -/
theorem test_receive_small :
    (netRx started frameToMac).curr = 0x47 ∧ (netRx started frameToMac).clda = 0x4700 ∧
    (netRx started frameToMac).isr = 0x01 ∧ (netRx started frameToMac).rsr = 0x01 ∧
    (List.range 6).map (fun k => Memory.read (netRx started frameToMac).ram (0x0600 + k)) =
      [0x01, 0x47, 0x44, 0x00, 0x52, 0x54] := by decide +kernel

/-- V44-8: overflow through the final round-up alone. -/
theorem test_receive_overflow :
    let t := netRx { started with pstop := 0x49, bnry := 0x46, curr := 0x48 } frameToMac
    t.isr = 0x94 ∧ t.rsr = 0x10 ∧ t.curr = 0x48 ∧ t.clda = 0x4600 ∧ Memory.read t.ram 0x0800 = 0 ∧
      Memory.read t.ram 0x0804 = 0x52 := by decide +kernel

/-- V44-6, V44-7: monitor mode. -/
theorem test_receive_monitor :
    (netRx { started with rcr := 0x20 } frameToMac).rsr = 0x10 ∧ (netRx { started with rcr := 0x20 } frameToMac).isr = 0x04 ∧
    (netRx { started with rcr := 0x20 } frameToMac).cntr2 = 1 ∧ (netRx { started with rcr := 0x24 } frameToAll).rsr = 0x30 := by
  decide

/-- V40-11: the counter stops at 192. -/
theorem test_counter_cap : (netRx { started with rcr := 0x20, cntr2 := 192 } frameToMac).cntr2 = 192 ∧
    (netRx { started with rcr := 0x20, cntr2 := 191 } frameToMac).cntr2 = 192 := by decide

/-- V46-4 to V46-6. -/
theorem test_gate_array_term :
    let el : State := { State.reset with cfg := { State.reset.cfg with variant := .el3c503 }, isr := 0x01, imr := 0x01 }
    (updateIrq { el with gaNim := true }).irqLevel = false ∧
    (updateIrq { el with isr := 0, gaDtc := true }).irqLevel = true ∧
    (updateIrq { el with gaDtc := true, gaTcm := true }).irqLevel = true := by decide

/-- V70-1. -/
theorem test_hard_reset :
    (hardReset { started with irqLevel := true, ram := [(3, 9)], cntr2 := 7 }).ram = [] ∧
    (hardReset { started with irqLevel := true }).cr = 0x21 ∧ (hardReset { started with irqLevel := true }).isr = 0x80 ∧
    (hardReset { started with irqLevel := true }).irqLevel = false ∧
    (hardReset { started with irqLevel := true }).irqCalls = [⟨3, false⟩] := by decide

/-! ### The step and the adapters -/

/-- The page in force before the access selects the register (spec/30_encoding.md R101). -/
theorem test_step_uses_page :
    nextHas (step (withAccess { State.reset with cr := 0x61 } (.reg true 7 0x46))) (fun t => t.curr = 0x46) = true ∧
    nextHas (step (withAccess State.reset (.reg false 0 0))) (fun t => t.reply = some (.byte 0x21)) = true := by decide

/-- V46-1 to V46-3, and R363, R365. -/
theorem test_routes :
    route { Config.defaultParams with variant := .ne2000 } false 0x307 = .reg 7 ∧
    route { Config.defaultParams with variant := .ne2000 } false 0x317 = .data ∧
    route { Config.defaultParams with variant := .ne2000 } false 0x31F = .reset ∧
    route { Config.defaultParams with variant := .ne1000 } false 0x313 = .data ∧
    route { Config.defaultParams with variant := .ne1000 } false 0x314 = .reset ∧
    route { Config.defaultParams with variant := .ne1000 } false 0x31B = .data ∧
    route { Config.defaultParams with variant := .wd8013 } false 0x317 = .reg 7 ∧
    route { Config.defaultParams with variant := .wd8013 } false 0x307 = .wrapper ∧
    route { Config.defaultParams with variant := .el3c503 } false 0x307 = .reg 7 ∧
    route { Config.defaultParams with variant := .el3c503 } true 0x307 = .prom 7 ∧
    route { Config.defaultParams with variant := .el3c503 } true 0x70F = .wrapper ∧
    route { Config.defaultParams with variant := .ne2000 } false 0x320 = .absent := by decide

/-- Spec/46_oem_wrappers.md R362, a word in the data group; R365, a 16-bit write to the mapped PROM is dropped; a word on
two registers is split, low byte at the lower port (log 35). -/
theorem test_wide_port_access :
    nextHas (step (withAccess { State.reset with cr := 0x12, dcr := 1, crda := 0x4000, rbcr := 2 }
      (.io true true 0x310 0x2211))) (fun t => t.ram = [(0, 0x11), (1, 0x22)]) = true ∧
    nextHas (step (withAccess { State.reset with cfg := { State.reset.cfg with variant := .el3c503 }, ealo := true }
      (.io true true 0x300 0x2211))) (fun t => t.cr = 0x21 ∧ t.inputs = []) = true ∧
    nextHas (step (withAccess State.reset (.io true true 0x301 0x8046))) (fun t => t.freeCount = 1 ∧ t.pstart = 0) = true ∧
    splitPieces .lowFirst true 0x301 0x8046 =
      [.access (.io true false 0x301 0x46), .access (.io true false 0x302 0x80)] := by decide

/-- The interface of the host: a word is the next instruction (log 2). -/
theorem test_fetch_word :
    nextHas (step (State.reset.withFetchWord 16 0x4657)) (fun t => t.curr = 0x46) = true ∧
    nextHas (step (State.reset.withFetchWord 8 0x07)) (fun t => t.reply = some (.byte 0x80)) = true := by decide

/-- Spec/46_oem_wrappers.md R363: the WD window while `MEME` is 1. -/
theorem test_shared_memory :
    let wd : State := { State.reset with cfg := { State.reset.cfg with variant := .wd8013 }, ram := [(5, 0xEE)] }
    applyEvent (.shmemRead 0xD0005) { wd with meme := true } = { wd with meme := true, reply := some (.byte 0xEE) } ∧
    applyEvent (.shmemRead 0xD0005) wd = wd ∧
    (applyEvent (.shmemWrite 0xD3FFF 0x11) { wd with meme := true }).ram = [(5, 0xEE), (0x3FFF, 0x11)] := by decide

/-- Local RAM after reset has the canonical form, and a write of the default byte lists nothing. -/
theorem test_memory_canonical :
    Memory.wf State.reset.ram = true ∧ Memory.write [(3, 9)] 3 0 = [] ∧ Memory.wf [(4, 1), (3, 1)] = false ∧
    Memory.wf [(16384, 1)] = false := by decide

/-! ### Witnesses: states that meet the hypotheses of the statements -/

theorem witness_TransmitTriggerIsEdgeOfTxp :
    ({ started with cr := 0x26 } : State).cr.getLsbD 2 = true ∧ started.cr.getLsbD 2 = false := by decide

theorem witness_RemoteCommandsAndPageSelectStoreTheirField :
    (4 : BitVec 3).getLsbD 2 = true ∧ (7 : BitVec 3).getLsbD 2 = true := by decide

theorem witness_SendPacketLoadsHeaderCount :
    ((1 : BitVec 3) ≠ 0 ∧ ({ started with cr := 0x0A } : State).cr.extractLsb' 3 3 = 1#3) ∧
    ((7 : BitVec 3) ≠ 0 ∧ ({ started with cr := 0x3A } : State).cr.extractLsb' 3 3 = 7#3) ∧
    started.cr.extractLsb' 3 3 = 4#3 ∧ ({ started with cr := 0x1A } : State).cr.extractLsb' 3 3 = 3#3 ∧
    started.cr.extractLsb' 3 3 ≠ 3#3 := by decide

theorem witness_InterruptAcknowledgeClearsWrittenBits :
    nextHas (exec (.p0wIsr 0x01) { State.reset with isr := 0xFF }) (fun t => t.isr = 0xDE) = true := by decide

theorem witness_CommandRegisterValueAfterWrite : TransmitterIdle State.reset ∧ TransmitterIdle started := by decide

theorem witness_CommandWriteWithoutTransmitFrame :
    ((0x22 : Byte).getLsbD 2 = false ∧ nextHas (exec (.wrCr 0x22) State.reset) (fun _ => true) = true ∧
      (0x22 : Byte) &&& 0x38 ≠ 0x18) ∧
    ((0x1A : Byte).getLsbD 2 = false ∧ nextHas (exec (.wrCr 0x1A) { State.reset with cr := 0x1A }) (fun _ => true) = true ∧
      (0x1A : Byte) &&& 0x38 = 0x18) := by decide

/-- Reading, byte and word; Send Packet, byte and word; the edges of the decode. -/
theorem witness_DataPortReadsTransfer :
    ({ started with cr := 0x0A } : State).cr.extractLsb' 3 3 = 1#3 ∧ ({ started with cr := 0x0A } : State).dcr.getLsbD 0 = false ∧
    ({ started with cr := 0x1A, dcr := 0x01 } : State).cr.extractLsb' 3 3 = 3#3 ∧
    ({ started with cr := 0x1A, dcr := 0x01 } : State).dcr.getLsbD 0 = true ∧
    0x2000 ≤ ((0x2000 : Word) &&& 0x3FFF).toNat ∧ ((0x1FFF : Word) &&& 0x3FFF).toNat < 0x2000 ∧
    0x4000 ≤ ((0x4000 : Word) &&& 0x7FFF).toNat ∧ ((0x3FFF : Word) &&& 0x7FFF).toNat < 0x4000 ∧
    decodeLocal started.cfg.variant 0x4000 = some 0 ∧ decodeLocal started.cfg.variant 0x3FFF = none := by decide

/-- Both widths, any address: the first and the last byte of local RAM and past them are
`witness_store_addresses`. -/
theorem witness_DataPortWritesTransferAndStoreOnlyTheirBytes (dcr : Byte) (a : Word) :
    ({ State.reset with cr := 0x12, dcr := dcr, crda := a } : State).cr.extractLsb' 3 3 = 2#3 ∧
    RamCanonical { State.reset with cr := 0x12, dcr := dcr, crda := a } ∧
    (0x00 : Byte).getLsbD 0 = false ∧ (0x01 : Byte).getLsbD 0 = true :=
  ⟨(by decide : (0x12 : Byte).extractLsb' 3 3 = 2#3), rfl, by decide, by decide⟩

theorem witness_store_addresses :
    decodeLocal .ne2000 0x4000 = some 0 ∧ decodeLocal .ne2000 0x7FFF = some 0x3FFF ∧ decodeLocal .ne2000 0x3FFF = none ∧
    decodeLocal .ne2000 0x8000 = none ∧ decodeLocal .ne2000 0x4000 ≠ some 2 := by decide

theorem witness_DisabledDataPortMovesNothing :
    started.cr.extractLsb' 3 3 ≠ 1#3 ∧ started.cr.extractLsb' 3 3 ≠ 3#3 ∧ started.cr.extractLsb' 3 3 ≠ 2#3 ∧
    ({ started with cr := 0x12 } : State).cr.extractLsb' 3 3 ≠ 1#3 ∧
    ({ started with cr := 0x12 } : State).cr.extractLsb' 3 3 ≠ 3#3 ∧
    ({ started with cr := 0x0A } : State).cr.extractLsb' 3 3 ≠ 2#3 := by decide

/-- Byte mode and word mode, any count: 0 and the largest among them. -/
theorem witness_RemoteCountRunsDownAndZeroMeansWhole (n : Word) :
    ({ State.reset with cr := 0x0A, rbcr := n } : State).cr.extractLsb' 3 3 = 1#3 ∧
    ({ State.reset with cr := 0x0A, rbcr := n } : State).dcr.getLsbD 0 = false ∧
    ({ State.reset with cr := 0x0A, dcr := 0x01, rbcr := n } : State).dcr.getLsbD 0 = true :=
  ⟨(by decide : (0x0A : Byte).extractLsb' 3 3 = 1#3), (by decide : (0x00 : Byte).getLsbD 0 = false),
    (by decide : (0x01 : Byte).getLsbD 0 = true)⟩

/-- The premises of the round trip: three bytes in the middle, and one byte at the last address before `PSTOP`. -/
theorem witness_RemoteDmaRoundTripReturnsTheBytes :
    ∀ p ∈ ([(0x4010, [0xAB, 0xCD, 0xEF]), (0x7FFF, [0xAB])] : List (Word × List Byte)),
      started.dcr.getLsbD 0 = false ∧ RamCanonical started ∧ 1 ≤ p.2.length ∧ p.2.length ≤ 16384 ∧
      (∀ i, i < p.2.length → (decodeLocal started.cfg.variant (p.1 + BitVec.ofNat 16 i)).isSome) ∧
      (∀ i, 0 < i → i < p.2.length → hiByte (p.1 + BitVec.ofNat 16 i) ≠ started.pstop) := by
  have h : ∀ p ∈ ([(0x4010, [0xAB, 0xCD, 0xEF]), (0x7FFF, [0xAB])] : List (Word × List Byte)),
      started.dcr.getLsbD 0 = false ∧ RamCanonical started ∧ 1 ≤ p.2.length ∧ p.2.length ≤ 16384 ∧
      (∀ i, i < p.2.length → (decodeLocal started.cfg.variant (p.1 + BitVec.ofNat 16 i)).isSome) ∧
      (∀ i, i < p.2.length → 0 < i → hiByte (p.1 + BitVec.ofNat 16 i) ≠ started.pstop) := by decide
  exact fun p hp => ⟨(h p hp).1, (h p hp).2.1, (h p hp).2.2.1, (h p hp).2.2.2.1, (h p hp).2.2.2.2.1,
    fun i h0 hi => (h p hp).2.2.2.2.2 i hi h0⟩

theorem witness_DecodeInvertsEncode :
    WellFormed (.crRdAbort 4) ∧ WellFormed (.resetWr 0xFFFF) ∧ (Instr.resetWr 0xFFFF).row.fmt ≠ 1 ∧
    WellFormed (.p0wIsr 0xFF) ∧ (Instr.p0wIsr 0xFF).row.fmt ≠ 1 := by decide

theorem witness_RegisterWordMatchesExactlyOneRow :
    Instr.rdCr.row.fmt = 0 ∧ (0b0110000 : BitVec 7).setWidth 8 &&& Instr.rdCr.row.mask = Instr.rdCr.row.pat := by decide

/-- Where the ports of each clause lead: 8-bit accesses, 16-bit accesses within a group, and across the edges. -/
theorem witness_StepRunsTheDecodedAccess :
    (withAccess State.reset (.reg true 15 0xFF)).inputs = [.access (.reg true 15 0xFF)] ∧
    (withAccess State.reset (.data false true 0)).inputs = [.access (.data false true 0)] ∧
    (withAccess State.reset (.reset true false 0)).inputs = [.access (.reset true false 0)] ∧
    (withAccess State.reset (.io true false 0x30F 0xFF)).inputs = [.access (.io true false 0x30F 0xFF)] ∧
    (withAccess State.reset (.io true true 0x30F 0xFF)).inputs = [.access (.io true true 0x30F 0xFF)] ∧
    (let dest := route State.reset.cfg (State.reset.ealo || State.reset.eahi)
     dest 0x2FF = .absent ∧ dest 0x300 = .reg 0 ∧ dest 0x30F = .reg 15 ∧ dest 0x310 = .data ∧ dest 0x317 = .data ∧
     dest 0x318 = .reset ∧ dest 0x31F = .reset ∧ dest 0x320 = .absent) ∧ State.reset.cfg.variant = .ne2000 ∧
    (let ne1 := { Config.defaultParams with variant := .ne1000 }
     ne1.variant = .ne1000 ∧ route ne1 false 0x310 = .data ∧ route ne1 false 0x311 = .data ∧
     route ne1 false 0x31E = .reset ∧ route ne1 false 0x31F = .reset) ∧
    (let el := { Config.defaultParams with variant := .el3c503 }
     el.variant = .el3c503 ∧ route el false 0x700 = .wrapper ∧ route el false 0x70F = .wrapper) ∧
    ∀ v ∈ [Variant.wd8003, Variant.wd8013], v = .wd8003 ∨ v = .wd8013 := by decide

theorem witness_StepRunsAnEncodedInstruction :
    WellFormed (.p3w0F 0xFF) ∧ (Instr.p3w0F 0xFF).row.fmt ≠ 1 ∧ WellFormed .dataRd16 ∧ Instr.dataRd16.row.fmt ≠ 1 := by decide

/-- Nothing waiting, an event, the 3C503, both WD boards at both ends of the window, the window closed, past its end and
on another board; the PROM is `witness_StepWaitsAndTakesEvents_prom`. -/
theorem witness_StepWaitsAndTakesEvents :
    State.reset.inputs = [] ∧ (withEvent State.reset .hardReset).inputs = [.event .hardReset] ∧
    State.reset.cfg.variant ≠ .el3c503 ∧ State.reset.cfg.variant ≠ .wd8003 ∧ State.reset.cfg.variant ≠ .wd8013 ∧
    State.reset.meme = false ∧ State.reset.cfg.shmemBase + State.reset.cfg.shmemSize ≤ 0xD4000 ∧
    0xCFFFF < State.reset.cfg.shmemBase ∧
    (∀ v ∈ [Variant.wd8003, Variant.wd8013],
      let wd : State := { State.reset with cfg := { State.reset.cfg with variant := v }, meme := true }
      (wd.cfg.variant = .wd8003 ∨ wd.cfg.variant = .wd8013) ∧ wd.meme = true ∧ 0 < wd.cfg.shmemSize ∧
      16383 < wd.cfg.shmemSize) := by decide

/-- A 3C503 with PROM bytes mapped by one bit and an access to come. -/
def promMapped (low w wide : Bool) : State := withAccess { State.reset with
  cfg := { State.reset.cfg with variant := .el3c503 }, ealo := low, eahi := !low } (.io w wide 0x30E 0)

/-- The PROM mapped by either bit, both directions, both widths, the last two ports. -/
theorem witness_StepWaitsAndTakesEvents_prom (low w wide : Bool) :
    (promMapped low w wide).cfg.variant = .el3c503 ∧
    (promMapped low w wide).inputs = [.access (.io w wide 0x30E 0)] ∧
    route (promMapped low w wide).cfg ((promMapped low w wide).ealo || (promMapped low w wide).eahi) 0x30E = .prom 14 ∧
    route (promMapped low w wide).cfg ((promMapped low w wide).ealo || (promMapped low w wide).eahi) 0x30F = .prom 15 ∧
    (14 : Nibble) ≠ 15 ∧ (promMapped low w wide).ealo ≠ (promMapped low w wide).eahi := by
  cases low <;> cases w <;> cases wide <;> decide

theorem reset_legal_parts :
    ReservedZero State.reset ∧ TransmitterIdle State.reset ∧ CountersLegal State.reset ∧ StatusLegal State.reset ∧
    HaltReported State.reset ∧ LineCoherent State.reset ∧ RamCanonical State.reset := by decide

/-- A legal state other than reset, from which a step answers a next state. -/
theorem witness_EveryStepKeepsLegality :
    Legal (withAccess started (.reg true 7 0xFF)) ∧
    nextHas (step (withAccess started (.reg true 7 0xFF))) (fun _ => true) = true :=
  ⟨⟨by decide, by decide, by decide, by decide, by decide, by decide, by decide⟩, by decide⟩

theorem witness_ConfigurationIsNeverChanged :
    nextHas (step (withEvent started (.netRx frameToMac))) (fun t => t.curr = 0x47) = true := by decide +kernel

theorem witness_OnlyStartClearsResetFlag :
    State.reset.isr.getLsbD 7 = true ∧
    nextHas (step (withAccess State.reset (.reg true 0 0x22))) (fun t => t.isr.getLsbD 7 = false) = true := by decide

theorem witness_OnlyHostMovesBoundary :
    nextHas (step (withAccess started (.reg true 3 0x7F))) (fun t => t.bnry ≠ started.bnry) = true ∧
    nextHas (step (withEvent started .hardReset)) (fun t => t.bnry ≠ started.bnry) = true := by decide

theorem witness_OnlyCommandWriteOrResetChangesPage :
    nextHas (step (withAccess started (.reg true 0 0xE2))) (fun t => t.cr.extractLsb' 6 2 = 3#2) = true ∧
    nextHas (step (withAccess { started with cr := 0xA2 } (.reset true false 0))) (fun t => t.cr.extractLsb' 6 2 = 0#2) = true ∧
    nextHas (step (withAccess { started with cr := 0xA2 } (.reset false false 0))) (fun t => t.cr.extractLsb' 6 2 = 0#2) = true ∧
    nextHas (step (withEvent { started with cr := 0xA2 } .hardReset)) (fun t => t.cr.extractLsb' 6 2 = 0#2) = true := by decide

theorem witness_OnlyDataPortWritesChangeRamAmongInstructions :
    nextHas (exec (.dataWr8 1) { State.reset with cr := 0x12, crda := 0x4000 }) (fun t => t.ram ≠ []) = true ∧
    nextHas (exec (.dataWr16 1) { State.reset with cr := 0x12, dcr := 1, crda := 0x4000 }) (fun t => t.ram ≠ []) = true := by
  decide

/-- Every way to be dropped: stopped, not started, not running, no link, seven bytes, no match. -/
theorem witness_DroppedFrameChangesNothing :
    (∀ s ∈ ([{ started with running := false }, { started with linkUp := false }, { started with cr := 0x20 },
        { started with cr := 0x23 }] : List State),
      ¬(s.running = true ∧ s.linkUp = true ∧ s.cr.getLsbD 1 = true ∧ s.cr.getLsbD 0 = false ∧ 8 ≤ frameToMac.length)) ∧
    ¬(8 ≤ (frameToMac.take 7).length) ∧ matchAddr started (frameToAll.take 6) = .none := by decide

/-- The acceptance gate open, with a frame of the least length. -/
theorem witness_AcceptedFrameIsStoredOrOverflows :
    started.running = true ∧ started.linkUp = true ∧ started.cr.getLsbD 1 = true ∧ started.cr.getLsbD 0 = false ∧
    8 ≤ (frameToMac.take 8).length ∧ matchAddr started ((frameToMac.take 8).take 6) ≠ .none ∧
    started.rcr.getLsbD 5 = false := by decide

/-- Both outcomes where they meet: one page with two pages to go, and with one; R309's lengths at a page end; a ring with
`CURR` at `BNRY` (spec/70_reset_and_hazards.md R418). -/
theorem witness_AcceptedFrameIsStoredOrOverflows_ring :
    started.pstart ≤ started.curr ∧ started.curr < started.pstop ∧ started.pstart ≤ started.bnry ∧
    started.bnry < started.pstop ∧ pagesOfFrame 8 < pagesToBoundary { started with curr := 0x7F, bnry := 0x47 } 0x7F ∧
    pagesToBoundary { started with curr := 0x7F, bnry := 0x46 } 0x7F ≤ pagesOfFrame 8 ∧
    pagesOfFrame 248 = 1 ∧ pagesOfFrame 249 = 2 ∧ pagesOfFrame 504 = 2 ∧ pagesOfFrame 505 = 3 ∧
    pagesToBoundary { started with curr := 0x46, bnry := 0x46 } 0x46 = 0x3A := by decide

theorem witness_MonitorModeCountsAndReports :
    let s : State := { started with rcr := 0x24 }
    s.running = true ∧ s.linkUp = true ∧ s.cr.getLsbD 1 = true ∧ s.cr.getLsbD 0 = false ∧ 8 ≤ frameToAll.length ∧
    matchAddr s (frameToAll.take 6) ≠ .none ∧ s.rcr.getLsbD 5 = true := by decide

/-- The addresses of the ring of `started` are its own offsets of local RAM. -/
theorem started_ring_offset (a : Word) (h1 : started.pstart ≤ hiByte a) (h2 : hiByte a < started.pstop) :
    decodeLocal started.cfg.variant a = some (a.toNat - 0x4000) ∧ 0x4600 ≤ a.toNat ∧ a.toNat < 0x8000 := by
  have hh : (hiByte a).toNat = a.toNat / 256 := by
    have := a.isLt
    simp [hiByte, BitVec.extractLsb'_toNat, Nat.shiftRight_eq_div_pow]
    omega
  have e1 : 0x46 ≤ (hiByte a).toNat := h1
  have e2 : (hiByte a).toNat < 0x80 := h2
  have e3 : a.toNat % 0x8000 = a.toNat := by omega
  refine ⟨?_, by omega, by omega⟩
  show (if 0x4000 ≤ a.toNat % 0x8000 then some (a.toNat % 0x8000 - 0x4000) else none) = _
  rw [e3, if_pos (by omega)]

theorem witness_RingSound : RingSound started := by
  refine ⟨by decide, by decide, by decide, by decide, ?_, ?_⟩
  · intro a h1 h2
    rw [(started_ring_offset a h1 h2).1]
    rfl
  · intro a b h1 h2 h3 h4 h
    obtain ⟨ha, ha1, -⟩ := started_ring_offset a h1 h2
    obtain ⟨hb, hb1, -⟩ := started_ring_offset b h3 h4
    rw [ha, hb] at h
    have := Option.some.inj h
    exact BitVec.eq_of_toNat_eq (by omega)

/-- The first and the last page not released, and an offset outside the ring. -/
theorem witness_ReceptionSparesUnreadPagesAndAllOutsideTheRing :
    RingSound started ∧ UnreadPage started (hiByte 0x5000) ∧ UnreadPage started (hiByte 0x7FFF) ∧
    ∀ a : Word, started.pstart ≤ hiByte a → hiByte a < started.pstop → decodeLocal started.cfg.variant a ≠ some 0 := by
  refine ⟨witness_RingSound, by unfold UnreadPage; decide, by unfold UnreadPage; decide, ?_⟩
  intro a h1 h2 h
  obtain ⟨ha, h3, -⟩ := started_ring_offset a h1 h2
  rw [ha] at h
  have := Option.some.inj h
  omega

/-- The rest of the hypotheses is `witness_AcceptedFrameIsStoredOrOverflows`. -/
theorem witness_StoredFrameReadsBackWhole :
    RingSound started ∧ RamCanonical started ∧ (netRx started (frameToMac.take 8)).rsr.getLsbD 0 = true :=
  ⟨witness_RingSound, by decide, by decide +kernel⟩

/-- Each of the five outcomes. -/
theorem witness_AddressFilterPredicatesAndOrder :
    matchAddr started (frameToMac.take 6) = .padr ∧ matchAddr { started with rcr := 0x04 } (frameToAll.take 6) = .bcast ∧
    matchAddr { started with rcr := 0x08, mar := #v[0, 0, 0, 0x80, 0, 0, 0, 0] } [1, 0, 0x5E, 0, 0, 1] = .mcast ∧
    matchAddr { started with rcr := 0x10 } [2, 0, 0, 0, 0, 9] = .prom ∧ matchAddr started [2, 0, 0, 0, 0, 9] = .none := by
  decide +kernel

/-- The counts on both sides of the limit, link down and up, an answer of the network. -/
theorem witness_NetworkPathReportsGiantsLinkAndAnswer :
    1536 < ({ started with tbcr := 1537 } : State).tbcr.toNat ∧
    (({ started with tbcr := 1536, linkUp := false } : State).tbcr.toNat ≤ 1536 ∧
      ({ started with tbcr := 1536, linkUp := false } : State).tcr.extractLsb' 1 2 = 0#2 ∧
      ({ started with tbcr := 1536, linkUp := false } : State).linkUp = false) ∧
    started.tbcr.toNat ≤ 1536 ∧ started.tcr.extractLsb' 1 2 = 0#2 ∧ started.linkUp = true ∧
    ({ started with netAnswers := [.transientFailure] } : State).netAnswers = .transientFailure :: [] := by decide

/-- Word and byte mode, with and without the FCS, at the limit. -/
theorem witness_LoopbackTransmitsSelectedBytesIntoFifo :
    ∀ tcr ∈ ([0x02, 0x03, 0x04, 0x06] : List Byte), ∀ dcr ∈ ([0x00, 0x01, 0x03] : List Byte),
      let s : State := { started with tcr := tcr, dcr := dcr, tbcr := 1536 }
      s.tbcr.toNat ≤ 1536 ∧ s.tcr.extractLsb' 1 2 ≠ 0#2 := by decide

/-- A stream of 14 bytes from `FIFO_WP` = 14 reaches the cells 14, 15 and 0 to 11, not 12 and 13 (V45-24). -/
theorem witness_LoopbackTransmitsSelectedBytesIntoFifo_unreached :
    14 ≤ ((12 : Nibble) - 14).toNat ∧ 14 ≤ ((13 : Nibble) - 14).toNat ∧ ¬14 ≤ ((11 : Nibble) - 14).toNat := by decide

/-- Link up and down at the limit, with no answer waiting, and a giant. -/
theorem witness_NetworkTransmissionFrame :
    ({ started with tcr := 0x19 } : State).tcr.extractLsb' 1 2 = 0#2 ∧ started.tcr.extractLsb' 1 2 = 0#2 ∧
    ({ started with tbcr := 1536 } : State).tbcr.toNat ≤ 1536 ∧ started.linkUp = true ∧ started.netAnswers = [] ∧
    ({ started with linkUp := false } : State).linkUp = false ∧ 1536 < ({ started with tbcr := 1537 } : State).tbcr.toNat := by
  decide

end Sys2Proof.Tests
end

section
/-! Proofs of the family 00_scope, the layer of facts: what each operation does to the configuration (spec/00_scope.md
R7), said once for each shared operation, instruction and event. -/

namespace Sys2Proof.Machine

variable (s : State)

/-! ### The data port -/

/-- What an 8-bit data-port read can do: transfer, be refused for its width, or move nothing. -/
theorem execDataRd8_cases :
    (readEnabled s = true ∧ dmaUnit s = 1 ∧
      execDataRd8 s = .next ((dmaStep s).withReply (.byte (localRead s s.crda)))) ∨
    (readEnabled s = true ∧ dmaUnit s ≠ 1 ∧ execDataRd8 s = .refused .dataPortWidth) ∨
    (readEnabled s = false ∧ execDataRd8 s = .next (s.withReply (.byte 0xFF))) := by
  unfold execDataRd8
  cases readEnabled s with
  | false => exact .inr (.inr ⟨rfl, rfl⟩)
  | true => by_cases hu : dmaUnit s = 1 <;> simp [hu, replyByte]

/-- What a 16-bit data-port read can do. -/
theorem execDataRd16_cases :
    (readEnabled s = true ∧ dmaUnit s = 2 ∧
      execDataRd16 s = .next ((dmaStep s).withReply (.word (localRead16 s s.crda)))) ∨
    (readEnabled s = true ∧ dmaUnit s ≠ 2 ∧ execDataRd16 s = .refused .dataPortWidth) ∨
    (readEnabled s = false ∧ execDataRd16 s = .next (s.withReply (.word 0xFFFF))) := by
  unfold execDataRd16
  cases readEnabled s with
  | false => exact .inr (.inr ⟨rfl, rfl⟩)
  | true => by_cases hu : dmaUnit s = 2 <;> simp [hu, replyWord]

/-- What an 8-bit data-port write can do. -/
theorem execDataWr8_cases (v : Byte) :
    (writeEnabled s = true ∧ dmaUnit s = 1 ∧ execDataWr8 v s = .next (dmaStep (localWrite s s.crda v))) ∨
    (writeEnabled s = true ∧ dmaUnit s ≠ 1 ∧ execDataWr8 v s = .refused .dataPortWidth) ∨
    (writeEnabled s = false ∧ execDataWr8 v s = .next s) := by
  unfold execDataWr8
  cases writeEnabled s with
  | false => exact .inr (.inr ⟨rfl, rfl⟩)
  | true => by_cases hu : dmaUnit s = 1 <;> simp [hu]

/-- What a 16-bit data-port write can do. -/
theorem execDataWr16_cases (v : Word) :
    (writeEnabled s = true ∧ dmaUnit s = 2 ∧ execDataWr16 v s = .next (dmaStep (localWrite16 s s.crda v))) ∨
    (writeEnabled s = true ∧ dmaUnit s ≠ 2 ∧ execDataWr16 v s = .refused .dataPortWidth) ∨
    (writeEnabled s = false ∧ execDataWr16 v s = .next s) := by
  unfold execDataWr16
  cases writeEnabled s with
  | false => exact .inr (.inr ⟨rfl, rfl⟩)
  | true => by_cases hu : dmaUnit s = 2 <;> simp [hu]

/-! ### The configuration under each shared operation -/

@[simp] theorem hardReset_cfg : (hardReset s).cfg = s.cfg := rfl
@[simp] theorem startStop_cfg (stp sta : Bool) : (startStop s stp sta).cfg = s.cfg := rfl
@[simp] theorem selectPage_cfg (ps : BitVec 2) : (selectPage s ps).cfg = s.cfg := rfl
@[simp] theorem splitAccess_cfg (w : Bool) (port : Nat) (v : Word) : (splitAccess s w port v).cfg = s.cfg := rfl

@[simp] theorem localWrite16_cfg (a v : Word) : (localWrite16 s a v).cfg = s.cfg := by simp [localWrite16]

@[simp] theorem promRead_cfg (wide : Bool) (a : Nibble) : (promRead s wide a).cfg = s.cfg := by
  obtain ⟨n, r, h⟩ := promRead_eq s wide a
  rw [h]

@[simp] theorem txEngine_cfg : (txEngine s).cfg = s.cfg := by
  obtain ⟨tsr, rsr, cause, fifo, wp, loopOut, netTx, answers, count, h, -, -⟩ := txEngine_cases s
  rw [h, updateIrq_cfg]

@[simp] theorem transmitTrigger_cfg (txp : Bool) : (transmitTrigger s txp).cfg = s.cfg := by
  rcases transmitTrigger_cases s txp with ⟨h, -⟩ | ⟨h, -⟩ <;> simp [h]

@[simp] theorem remoteCommand_cfg (rd : BitVec 3) : (remoteCommand s rd).cfg = s.cfg := by
  rw [remoteCommand_eq]

@[simp] theorem countMissed_cfg : (countMissed s).cfg = s.cfg := by
  unfold countMissed
  split <;> rfl

@[simp] theorem storeFrame_cfg (g : List Byte) : (storeFrame s g).1.cfg = s.cfg := by
  obtain ⟨m, c, -, ⟨h, -⟩ | ⟨h, -⟩⟩ := storeFrame_cases s g <;> rw [h]

@[simp] theorem finishReceive_cfg (start rsr : Byte) (len : Nat) : (finishReceive s start rsr len).cfg = s.cfg := by
  cases h : rsrIntact rsr with
  | true => rw [finishReceive_intact s start rsr len h, updateIrq_cfg]
  | false => rw [finishReceive_error s start rsr len h, updateIrq_cfg]

@[simp] theorem netRx_cfg (frame : List Byte) : (netRx s frame).cfg = s.cfg := by
  unfold netRx
  split
  · simp only []
    split
    · rfl
    · split <;> simp
  · rfl

/-! ### The configuration under events and instructions -/

/-- No event changes the configuration. -/
@[simp] theorem applyEvent_cfg (e : Event) : (applyEvent e s).cfg = s.cfg := by
  cases e with
  | netRx frame => exact netRx_cfg s frame
  | hardReset => exact hardReset_cfg s
  | linkUp b => rfl
  | run b => rfl
  | netAnswer r => rfl
  | gateArray nim tcm dtc =>
    simp only [applyEvent]
    split <;> rfl
  | promMap ealo eahi =>
    simp only [applyEvent]
    split <;> rfl
  | memEnable b =>
    simp only [applyEvent]
    split <;> rfl
  | shmemRead addr =>
    simp only [applyEvent]
    split <;> rfl
  | shmemWrite addr b =>
    simp only [applyEvent]
    split <;> rfl

/-- The outcome, where it is a next state, has the configuration of `s`. -/
def KeepsCfg (o : Host.Outcome State Fault Refusal) : Prop := ∀ t, o = .next t → t.cfg = s.cfg

@[simp] theorem keepsCfg_next (u : State) : KeepsCfg s (.next u) ↔ u.cfg = s.cfg := by simp [KeepsCfg]

@[simp] theorem keepsCfg_refused (r : Refusal) : KeepsCfg s (.refused r) := by simp [KeepsCfg]

theorem execDataRd8_keepsCfg : KeepsCfg s (execDataRd8 s) := by
  rcases execDataRd8_cases s with ⟨-, -, h⟩ | ⟨-, -, h⟩ | ⟨-, h⟩ <;> simp [h]

theorem execDataRd16_keepsCfg : KeepsCfg s (execDataRd16 s) := by
  rcases execDataRd16_cases s with ⟨-, -, h⟩ | ⟨-, -, h⟩ | ⟨-, h⟩ <;> simp [h]

theorem execDataWr8_keepsCfg (v : Byte) : KeepsCfg s (execDataWr8 v s) := by
  rcases execDataWr8_cases s v with ⟨-, -, h⟩ | ⟨-, -, h⟩ | ⟨-, h⟩ <;> simp [h]

theorem execDataWr16_keepsCfg (v : Word) : KeepsCfg s (execDataWr16 v s) := by
  rcases execDataWr16_cases s v with ⟨-, -, h⟩ | ⟨-, -, h⟩ | ⟨-, h⟩ <;> simp [h]

theorem execWrCr_keepsCfg (d : Byte) : KeepsCfg s (execWrCr d s) := by simp [execWrCr]

/-- No instruction changes the configuration. A case that is not named writes fields given in its meaning itself, so that
the configuration is kept by definition. -/
theorem exec_keepsCfg (i : Instr) : KeepsCfg s (exec i s) := by
  cases i
  case wrCr d => exact execWrCr_keepsCfg s d
  case crTxp => exact (keepsCfg_next s _).2 (transmitTrigger_cfg s true)
  case crRdInvalid => exact (keepsCfg_next s _).2 (remoteCommand_cfg s 0)
  case crRdRead => exact (keepsCfg_next s _).2 (remoteCommand_cfg s 1)
  case crRdWrite => exact (keepsCfg_next s _).2 (remoteCommand_cfg s 2)
  case crRdSend => exact (keepsCfg_next s _).2 (remoteCommand_cfg s 3)
  case crRdAbort rd => exact (keepsCfg_next s _).2 (remoteCommand_cfg s rd)
  case dataRd8 => exact execDataRd8_keepsCfg s
  case dataRd16 => exact execDataRd16_keepsCfg s
  case dataWr8 v => exact execDataWr8_keepsCfg s v
  case dataWr16 v => exact execDataWr16_keepsCfg s v
  all_goals exact (keepsCfg_next s _).2 rfl

end Sys2Proof.Machine
end

section
/-! Proofs of the family 00_scope: the statements. -/

namespace Sys2Proof.Proofs

open Sys2Proof.Machine

/-- Settles O44: each thing that a step can be keeps the configuration. -/
theorem configurationIsNeverChanged : Obligations.ConfigurationIsNeverChanged := by
  intro s t h
  rcases step_cases h with ⟨-, rfl⟩ | ⟨i, -, hx⟩ | ⟨e, -, rfl⟩ | ⟨wide, a, -, rfl⟩ | ⟨-, rfl⟩ | ⟨w, port, v, -, rfl⟩
  · rfl
  · exact exec_keepsCfg s.advance i t hx
  · exact applyEvent_cfg s.advance e
  · exact promRead_cfg s.advance wide a
  · rfl
  · exact splitAccess_cfg s.advance w port v

end Sys2Proof.Proofs
end

section
/-! Proofs of the family 00_scope, the layer of facts: one step by what is fetched, what a host port access is by where
its ports lead, and the port table of each adapter (spec/46_oem_wrappers.md R361 to R365). -/

namespace Sys2Proof.Machine

section
variable {s : State}

/-! ### One step, by what is fetched -/

theorem step_of_fetch_idle (h : fetch s = .idle) : step s = .next s := by rw [step, h]

theorem step_of_fetch_instr {i : Instr} (h : fetch s = .instr i) : step s = exec i s.advance := by rw [step, h]

theorem step_of_fetch_event {e : Event} (h : fetch s = .event e) : step s = .next (applyEvent e s.advance) := by
  rw [step, h]

theorem step_of_fetch_prom {wide : Bool} {a : Nibble} (h : fetch s = .prom wide a) :
    step s = .next (promRead s.advance wide a) := by rw [step, h]

theorem step_of_fetch_ignored (h : fetch s = .ignored) : step s = .next s.advance := by rw [step, h]

theorem step_of_fetch_split {w : Bool} {port : Nat} {v : Word} (h : fetch s = .split w port v) :
    step s = .next (splitAccess s.advance w port v) := by rw [step, h]

theorem step_of_fetch_refuse {r : Refusal} (h : fetch s = .refuse r) : step s = .refused r := by rw [step, h]

/-! ### What is fetched, by what waits -/

theorem fetch_of_nil (h : s.inputs = []) : fetch s = .idle := by rw [fetch, h]

theorem fetch_of_event {e : Event} {rest : List Input} (h : s.inputs = .event e :: rest) : fetch s = .event e := by
  rw [fetch, h]

theorem fetch_of_access {a : Access} {rest : List Input} (h : s.inputs = .access a :: rest) :
    fetch s = fetchAccess s a := by rw [fetch, h]

theorem fetch_of_narrow {w : Bool} {port : Nat} {v : Word} {rest : List Input}
    (h : s.inputs = .access (.io w false port v) :: rest) : fetch s = fetchPort s w port v :=
  fetch_of_access h

theorem fetch_of_wide {w : Bool} {port : Nat} {v : Word} {rest : List Input}
    (h : s.inputs = .access (.io w true port v) :: rest) : fetch s = fetchWide s w port v :=
  fetch_of_access h

theorem advance_of_cons {x : Input} {rest : List Input} (h : s.inputs = x :: rest) :
    s.advance = { s with inputs := rest, reply := none } := by rw [State.advance, h, List.tail_cons]

end

/-! ### An 8-bit host port access, by where its port leads -/

section
variable {s : State} {w : Bool} {port : Nat} {v : Word}

theorem fetchPort_of_reg {a : Nibble} (h : route s.cfg (s.ealo || s.eahi) port = .reg a) :
    fetchPort s w port v = .instr (regInstr s w a (v.setWidth 8)) := by rw [fetchPort, h]

theorem fetchPort_of_data (h : route s.cfg (s.ealo || s.eahi) port = .data) :
    fetchPort s w port v = .instr (portInstr w false false v) := by rw [fetchPort, h]

theorem fetchPort_of_reset (h : route s.cfg (s.ealo || s.eahi) port = .reset) :
    fetchPort s w port v = .instr (portInstr w true false v) := by rw [fetchPort, h]

theorem fetchPort_of_prom {a : Nibble} (h : route s.cfg (s.ealo || s.eahi) port = .prom a) :
    fetchPort s w port v = if w then .ignored else .prom false a := by rw [fetchPort, h]

theorem fetchPort_of_wrapper (h : route s.cfg (s.ealo || s.eahi) port = .wrapper) :
    fetchPort s w port v = .refuse .wrapperRegister := by rw [fetchPort, h]

theorem fetchPort_of_absent (h : route s.cfg (s.ealo || s.eahi) port = .absent) :
    fetchPort s w port v = .ignored := by rw [fetchPort, h]

/-! ### A 16-bit host port access, by where its two ports lead -/

theorem fetchWide_of_ne2000_data (hv : s.cfg.variant = .ne2000)
    (h : route s.cfg (s.ealo || s.eahi) port = .data) (h' : route s.cfg (s.ealo || s.eahi) (port + 1) = .data) :
    fetchWide s w port v = .instr (portInstr w false true v) := by simp only [fetchWide, h, h', hv, if_true]

theorem fetchWide_of_reset (h : route s.cfg (s.ealo || s.eahi) port = .reset)
    (h' : route s.cfg (s.ealo || s.eahi) (port + 1) = .reset) :
    fetchWide s w port v = .instr (portInstr w true true v) := by simp only [fetchWide, h, h']

theorem fetchWide_of_wrapper (h : route s.cfg (s.ealo || s.eahi) port = .wrapper)
    (h' : route s.cfg (s.ealo || s.eahi) (port + 1) = .wrapper) :
    fetchWide s w port v = .refuse .wrapperRegister := by simp only [fetchWide, h, h']

theorem fetchWide_of_absent (h : route s.cfg (s.ealo || s.eahi) port = .absent)
    (h' : route s.cfg (s.ealo || s.eahi) (port + 1) = .absent) :
    fetchWide s w port v = .ignored := by simp only [fetchWide, h, h']

theorem fetchWide_of_prom {a b : Nibble} (h : route s.cfg (s.ealo || s.eahi) port = .prom a)
    (h' : route s.cfg (s.ealo || s.eahi) (port + 1) = .prom b) :
    fetchWide s w port v = if w then .ignored else .prom true a := by simp only [fetchWide, h, h']

theorem fetchWide_of_prom_absent {a : Nibble} (h : route s.cfg (s.ealo || s.eahi) port = .prom a)
    (h' : route s.cfg (s.ealo || s.eahi) (port + 1) = .absent) :
    fetchWide s w port v = if w then .ignored else .split w port v := by simp only [fetchWide, h, h']

/-- A register at the lower port. -/
theorem fetchWide_of_reg_low {a : Nibble} (h : route s.cfg (s.ealo || s.eahi) port = .reg a) :
    fetchWide s w port v = .split w port v := by
  cases h' : route s.cfg (s.ealo || s.eahi) (port + 1) <;> simp only [fetchWide, h, h']

/-- A register at the upper port. -/
theorem fetchWide_of_reg_high {a : Nibble} (h' : route s.cfg (s.ealo || s.eahi) (port + 1) = .reg a) :
    fetchWide s w port v = .split w port v := by
  cases h : route s.cfg (s.ealo || s.eahi) port <;> simp only [fetchWide, h, h']

/-- The data port at the lower port, on a board other than the NE2000. -/
theorem fetchWide_of_data_low (hv : s.cfg.variant ≠ .ne2000) (h : route s.cfg (s.ealo || s.eahi) port = .data) :
    fetchWide s w port v = .split w port v := by
  cases h' : route s.cfg (s.ealo || s.eahi) (port + 1) <;> simp only [fetchWide, h, h', hv, if_false]

/-- The data port at the upper port, on a board other than the NE2000. -/
theorem fetchWide_of_data_high (hv : s.cfg.variant ≠ .ne2000)
    (h' : route s.cfg (s.ealo || s.eahi) (port + 1) = .data) : fetchWide s w port v = .split w port v := by
  cases h : route s.cfg (s.ealo || s.eahi) port <;> simp only [fetchWide, h, h', hv, if_false]

theorem fetchWide_of_data_reset (h : route s.cfg (s.ealo || s.eahi) port = .data)
    (h' : route s.cfg (s.ealo || s.eahi) (port + 1) = .reset) :
    fetchWide s w port v = .split w port v := by simp only [fetchWide, h, h']

/-- Where the statement of the step says that a 16-bit access is split: a register at either port, the NE1000's data group
at either port, the edge from the data group to the reset group. -/
theorem fetchWide_split {a : Nibble} (h : route s.cfg (s.ealo || s.eahi) port = .reg a ∨
    route s.cfg (s.ealo || s.eahi) (port + 1) = .reg a ∨
    (s.cfg.variant = .ne1000 ∧
      (route s.cfg (s.ealo || s.eahi) port = .data ∨ route s.cfg (s.ealo || s.eahi) (port + 1) = .data)) ∨
    (route s.cfg (s.ealo || s.eahi) port = .data ∧ route s.cfg (s.ealo || s.eahi) (port + 1) = .reset)) :
    fetchWide s w port v = .split w port v := by
  rcases h with hd | hd | ⟨hv, hd | hd⟩ | ⟨hd, hd'⟩
  · exact fetchWide_of_reg_low hd
  · exact fetchWide_of_reg_high hd
  · exact fetchWide_of_data_low (by simp [hv]) hd
  · exact fetchWide_of_data_high (by simp [hv]) hd
  · exact fetchWide_of_data_reset hd hd'

/-- A write to the mapped PROM is dropped at any width: the upper port leads to the PROM too or past its end. -/
theorem fetchWide_prom_write {a : Nibble} (h : route s.cfg (s.ealo || s.eahi) port = .prom a)
    (h' : (∃ b, route s.cfg (s.ealo || s.eahi) (port + 1) = .prom b) ∨
      route s.cfg (s.ealo || s.eahi) (port + 1) = .absent) : fetchWide s true port v = .ignored := by
  rcases h' with ⟨b, h'⟩ | h'
  · exact fetchWide_of_prom h h'
  · exact fetchWide_of_prom_absent h h'

end

/-! ### The port tables -/

section
variable {p : Params} {mapped : Bool} {k : Nat}

theorem route_below (h : k < p.ioBase) : route p mapped k = .absent := if_pos h

theorem route_ne1000 (h : p.variant = .ne1000) : route p mapped (p.ioBase + k) =
    if k < 0x10 then .reg (BitVec.ofNat 4 k)
    else if k < 0x20 then (if k % 8 < 4 then .data else .reset) else .absent := by simp [route, h]

theorem route_ne2000 (h : p.variant = .ne2000) : route p mapped (p.ioBase + k) =
    if k < 0x10 then .reg (BitVec.ofNat 4 k)
    else if k < 0x18 then .data else if k < 0x20 then .reset else .absent := by simp [route, h]

theorem route_wd (h : p.variant = .wd8003 ∨ p.variant = .wd8013) : route p mapped (p.ioBase + k) =
    if k < 0x10 then .wrapper else if k < 0x20 then .reg (BitVec.ofNat 4 (k - 0x10)) else .absent := by
  rcases h with h | h <;> simp [route, h]

theorem route_el3c503 (h : p.variant = .el3c503) : route p mapped (p.ioBase + k) =
    if k < 0x10 then (if mapped then .prom (BitVec.ofNat 4 k) else .reg (BitVec.ofNat 4 k))
    else if 0x400 ≤ k ∧ k < 0x410 then .wrapper else .absent := by simp [route, h]

/-- A port leads to the PROM on the 3C503 only, while it is mapped, in the first group of the window. -/
theorem route_prom_iff {port : Nat} {a : Nibble} : route p mapped port = .prom a ↔
    p.variant = .el3c503 ∧ mapped = true ∧ port = p.ioBase + a.toNat := by
  constructor
  · intro h
    have hlow : p.ioBase ≤ port := by
      by_contra hb
      rw [route_below (Nat.lt_of_not_le hb)] at h
      cases h
    obtain ⟨k, rfl⟩ := Nat.exists_eq_add_of_le hlow
    cases hv : p.variant with
    | ne1000 => rw [route_ne1000 hv] at h; split_ifs at h
    | ne2000 => rw [route_ne2000 hv] at h; split_ifs at h
    | wd8003 => rw [route_wd (.inl hv)] at h; split_ifs at h
    | wd8013 => rw [route_wd (.inr hv)] at h; split_ifs at h
    | el3c503 =>
      rw [route_el3c503 hv] at h
      split_ifs at h with hk hm
      obtain rfl := Route.prom.inj h
      exact ⟨rfl, hm, by rw [BitVec.toNat_ofNat, Nat.mod_eq_of_lt hk]⟩
  · rintro ⟨hv, rfl, rfl⟩
    simp [route_el3c503 hv, a.isLt]

/-- Behind a port that leads to the PROM stands the next PROM port, or behind the last one nothing. -/
theorem route_after_prom {port : Nat} {a : Nibble} (h : route p mapped port = .prom a) :
    route p mapped (port + 1) = if a = 15 then .absent else .prom (a + 1) := by
  obtain ⟨hv, rfl, rfl⟩ := route_prom_iff.1 h
  by_cases ha : a = 15
  · subst ha
    rw [if_pos rfl, Nat.add_assoc, route_el3c503 hv]
    rfl
  · have hnext : (a + 1).toNat = a.toNat + 1 := by bv_omega
    rw [if_neg ha, route_prom_iff, hnext]
    exact ⟨hv, rfl, Nat.add_assoc _ _ _⟩

end

end Sys2Proof.Machine
end

section
/-! Proofs of the family 00_scope: the step and the adapters. -/

namespace Sys2Proof.Proofs

open Sys2Proof.Machine

section
variable {s : State} {rest : List Input} {w : Bool} {port : Nat} {v : Word}

/-- An 8-bit host port access, by where its port leads. -/
theorem step_narrow (h : s.inputs = .access (.io w false port v) :: rest) (a : Nibble) :
    let u : State := { s with inputs := rest, reply := none }
    let dest := route s.cfg (s.ealo || s.eahi)
    (dest port = .reg a → step s = exec (decodeReg (BitVec.ofBool w ++ s.cr.extractLsb' 6 2 ++ a) (v.setWidth 8)) u) ∧
    (dest port = .data → step s = exec (decodePort (BitVec.ofBool w ++ 0#2) v) u) ∧
    (dest port = .reset → step s = exec (decodePort (BitVec.ofBool w ++ 2#2) v) u) ∧
    (dest port = .wrapper → step s = .refused .wrapperRegister) ∧
    (dest port = .absent → step s = .next u) := by
  have hf := fetch_of_narrow h
  have hport : portWord w false false = BitVec.ofBool w ++ 0#2 ∧ portWord w true false = BitVec.ofBool w ++ 2#2 := by
    cases w <;> decide
  intro u dest
  rw [← hport.1, ← hport.2, show u = s.advance from (advance_of_cons h).symm]
  exact ⟨fun hd => step_of_fetch_instr (hf.trans (fetchPort_of_reg hd)),
    fun hd => step_of_fetch_instr (hf.trans (fetchPort_of_data hd)),
    fun hd => step_of_fetch_instr (hf.trans (fetchPort_of_reset hd)),
    fun hd => step_of_fetch_refuse (hf.trans (fetchPort_of_wrapper hd)),
    fun hd => step_of_fetch_ignored (hf.trans (fetchPort_of_absent hd))⟩

/-- A split access becomes 8-bit accesses in one of five ways. -/
theorem step_split (h : s.inputs = .access (.io w true port v) :: rest) (hd : fetchWide s w port v = .split w port v) :
    let low : Input := .access (.io w false port (v &&& 0x00FF))
    let high : Input := .access (.io w false (port + 1) (v >>> 8))
    ∃ pieces ∈ [[low, high], [high, low], [low], [high], []],
      step s = .next { s with inputs := pieces ++ rest, reply := none, freeCount := s.freeCount + 1 } := by
  refine ⟨_, splitPieces_cases (Config.freeSplit s.freeCount) w port v, ?_⟩
  rw [step_of_fetch_split ((fetch_of_wide h).trans hd), advance_of_cons h]
  rfl

/-- A 16-bit host port access that is not split, by where its two ports lead. -/
theorem step_wide (h : s.inputs = .access (.io w true port v) :: rest) :
    let u : State := { s with inputs := rest, reply := none }
    let dest := route s.cfg (s.ealo || s.eahi)
    (s.cfg.variant = .ne2000 → dest port = .data → dest (port + 1) = .data →
      step s = exec (decodePort (BitVec.ofBool w ++ 1#2) v) u) ∧
    (dest port = .reset → dest (port + 1) = .reset → step s = exec (decodePort (BitVec.ofBool w ++ 3#2) v) u) ∧
    (dest port = .wrapper → dest (port + 1) = .wrapper → step s = .refused .wrapperRegister) ∧
    (dest port = .absent → dest (port + 1) = .absent → step s = .next u) := by
  have hf := fetch_of_wide h
  have hport : portWord w false true = BitVec.ofBool w ++ 1#2 ∧ portWord w true true = BitVec.ofBool w ++ 3#2 := by
    cases w <;> decide
  intro u dest
  rw [← hport.1, ← hport.2, show u = s.advance from (advance_of_cons h).symm]
  exact ⟨fun hv hd hd' => step_of_fetch_instr (hf.trans (fetchWide_of_ne2000_data hv hd hd')),
    fun hd hd' => step_of_fetch_instr (hf.trans (fetchWide_of_reset hd hd')),
    fun hd hd' => step_of_fetch_refuse (hf.trans (fetchWide_of_wrapper hd hd')),
    fun hd hd' => step_of_fetch_ignored (hf.trans (fetchWide_of_absent hd hd'))⟩

end

/-- Settles O36: the step by the kind of the oldest access, and the port table of each adapter. -/
theorem stepRunsTheDecodedAccess : Obligations.StepRunsTheDecodedAccess := by
  intro s rest w wide a d v port u dest
  refine ⟨fun h => ?reg, fun h => ?data, fun h => ?reset, fun h => step_narrow h a, fun h => ?wide,
    fun p mapped => ⟨fun k => route_below, fun hv => ?ne1000, fun hv => ?ne2000, fun hv => ?wd, fun hv => ?el3c503⟩⟩
  case reg => rw [step_of_fetch_instr (fetch_of_access h), advance_of_cons h]; rfl
  case data => rw [step_of_fetch_instr (fetch_of_access h), advance_of_cons h]; rfl
  case reset => rw [step_of_fetch_instr (fetch_of_access h), advance_of_cons h]; rfl
  case wide =>
    obtain ⟨hdata, hreset, hwrapper, habsent⟩ := step_wide h
    exact ⟨hdata, hreset, hwrapper, habsent, fun hd => step_split h (fetchWide_split hd)⟩
  case ne1000 =>
    simp only [route_ne1000 hv]
    refine ⟨?_, ?_, ?_, ?_, ?_, ?_⟩ <;> intros <;> simp (disch := omega) only [if_pos, if_neg]
  case ne2000 =>
    simp only [route_ne2000 hv]
    refine ⟨?_, ?_, ?_, ?_⟩ <;> intros <;> simp (disch := omega) only [if_pos, if_neg]
  case wd =>
    simp only [Nat.add_assoc, route_wd hv]
    refine ⟨?_, ?_, ?_⟩ <;> intros <;> simp (disch := omega) only [if_pos, if_neg, Nat.add_sub_cancel_left]
  case el3c503 =>
    simp only [route_el3c503 hv, Bool.false_eq_true, if_true, if_false]
    refine ⟨fun k hk => ⟨?_, ?_⟩, ?_, ?_⟩ <;> intros <;> simp (disch := omega) only [if_pos, if_neg]

end Sys2Proof.Proofs
end

section
/-! Proofs of the family 00_scope, the layer of facts: each event in one step, the shared-memory window of the WD boards
(spec/46_oem_wrappers.md R363) and the mapped PROM of the 3C503 (R365). -/

namespace Sys2Proof.Machine

@[simp] theorem isWd_iff {v : Variant} : isWd v = true ↔ v = .wd8003 ∨ v = .wd8013 := by cases v <;> simp [isWd]

@[simp] theorem isEl3c503_iff {v : Variant} : isEl3c503 v = true ↔ v = .el3c503 := by cases v <;> simp [isEl3c503]

section
variable {s : State}

/-! ### The bits of the adapters -/

theorem applyEvent_gateArray (nim tcm dtc : Bool) : applyEvent (.gateArray nim tcm dtc) s =
    if s.cfg.variant = .el3c503 then updateIrq { s with gaNim := nim, gaTcm := tcm, gaDtc := dtc } else s := by
  simp only [applyEvent, isEl3c503_iff]

theorem applyEvent_promMap (ealo eahi : Bool) : applyEvent (.promMap ealo eahi) s =
    if s.cfg.variant = .el3c503 then { s with ealo := ealo, eahi := eahi } else s := by
  simp only [applyEvent, isEl3c503_iff]

theorem applyEvent_memEnable (b : Bool) : applyEvent (.memEnable b) s =
    if s.cfg.variant = .wd8003 ∨ s.cfg.variant = .wd8013 then { s with meme := b } else s := by
  simp only [applyEvent, isWd_iff]

/-! ### The shared-memory window -/

/-- While the window is open, a host address in it is a byte of local RAM. -/
theorem sharedOffset_of_open {o : Nat} (hv : s.cfg.variant = .wd8003 ∨ s.cfg.variant = .wd8013) (hm : s.meme = true)
    (ho : o < s.cfg.shmemSize) : sharedOffset s (s.cfg.shmemBase + o) = some (o % 16384) := by
  simp [sharedOffset, hv, hm, ho]

/-- The window is closed, the address is below it or past its end, or the board has none. -/
theorem sharedOffset_of_closed {addr : Nat} (h : s.meme = false ∨ addr < s.cfg.shmemBase ∨
    s.cfg.shmemBase + s.cfg.shmemSize ≤ addr ∨ (s.cfg.variant ≠ .wd8003 ∧ s.cfg.variant ≠ .wd8013)) :
    sharedOffset s addr = none := by
  refine if_neg fun hopen => ?_
  simp only [Bool.and_eq_true, decide_eq_true_eq, isWd_iff] at hopen
  obtain ⟨⟨⟨hwd, hmeme⟩, hlow⟩, hhigh⟩ := hopen
  rcases h with hm | hb | he | ⟨h3, h13⟩
  · simp [hm] at hmeme
  · omega
  · omega
  · exact hwd.elim h3 h13

/-- Both accesses of the window where the address leads to local RAM. -/
theorem applyEvent_shmem_of_some {addr o : Nat} (h : sharedOffset s addr = some o) (b : Byte) :
    applyEvent (.shmemRead addr) s = { s with reply := some (.byte (Memory.read s.ram o)) } ∧
    applyEvent (.shmemWrite addr b) s = { s with ram := Memory.write s.ram o b } := by
  simp only [applyEvent, h]
  exact ⟨rfl, rfl⟩

/-- Both accesses of the window where the address leads to nothing. -/
theorem applyEvent_shmem_of_none {addr : Nat} (h : sharedOffset s addr = none) (b : Byte) :
    applyEvent (.shmemRead addr) s = s ∧ applyEvent (.shmemWrite addr b) s = s := by
  constructor <;> simp only [applyEvent, h]

/-! ### The mapped PROM -/

theorem prom_not_both (h : s.ealo ≠ s.eahi) : (s.ealo && s.eahi) = false := by
  cases hlow : s.ealo <;> simp_all

/-- With one of `ealo`, `eahi` set, the byte of the half that it selects. -/
theorem promByte_of_one (h : s.ealo ≠ s.eahi) (a n : Nat) :
    promByte s a n = s.cfg.prom.toList.getD (if s.eahi then 16 + a else a) 0 := by
  rw [promByte, prom_not_both h]
  rfl

/-- With one of `ealo`, `eahi` set, a read of the PROM gives its bytes and draws no free value. -/
theorem promRead_of_one (h : s.ealo ≠ s.eahi) (wide : Bool) (a : Nibble) : promRead s wide a =
    let prom (k : Nat) : Byte := s.cfg.prom.toList.getD (if s.eahi then 16 + k else k) 0
    { s with reply := some (if wide then .word (prom (a.toNat + 1) ++ prom a.toNat) else .byte (prom a.toNat)) } := by
  cases wide <;> simp only [promRead, promByte_of_one h, prom_not_both h] <;> rfl

end

end Sys2Proof.Machine
end

section
/-! Proofs of the family 00_scope: waiting and events. -/

namespace Sys2Proof.Proofs

open Sys2Proof.Machine

section
variable {s : State} {rest : List Input} {port : Nat} {v : Word} {a : Nibble}

/-- An access to a port that leads to the mapped PROM: a read of either width, and a write, which is dropped. -/
theorem step_prom (hd : route s.cfg (s.ealo || s.eahi) port = .prom a) :
    let prom (k : Nat) : Byte := s.cfg.prom.toList.getD (if s.eahi then 16 + k else k) 0
    (s.inputs = .access (.io false false port v) :: rest → s.ealo ≠ s.eahi →
      step s = .next { s with inputs := rest, reply := some (.byte (prom a.toNat)) }) ∧
    (s.inputs = .access (.io false true port v) :: rest → s.ealo ≠ s.eahi → a ≠ 15 →
      step s = .next { s with inputs := rest, reply := some (.word (prom (a.toNat + 1) ++ prom a.toNat)) }) ∧
    (∀ wide, s.inputs = .access (.io true wide port v) :: rest →
      step s = .next { s with inputs := rest, reply := none }) := by
  have hd' := route_after_prom hd
  refine ⟨fun h hne => ?narrow, fun h hne ha => ?wide, fun wide h => ?write⟩
  case narrow =>
    rw [step_of_fetch_prom ((fetch_of_narrow h).trans (fetchPort_of_prom hd)),
      promRead_of_one (s := s.advance) hne, advance_of_cons h]
    rfl
  case wide =>
    rw [if_neg ha] at hd'
    rw [step_of_fetch_prom ((fetch_of_wide h).trans (fetchWide_of_prom hd hd')),
      promRead_of_one (s := s.advance) hne, advance_of_cons h]
    rfl
  case write =>
    rw [← advance_of_cons h]
    refine step_of_fetch_ignored ?_
    cases wide with
    | false => exact (fetch_of_narrow h).trans (fetchPort_of_prom hd)
    | true =>
      refine (fetch_of_wide h).trans (fetchWide_prom_write hd ?_)
      by_cases ha : a = 15
      · exact .inr (hd'.trans (if_pos ha))
      · exact .inl ⟨_, hd'.trans (if_neg ha)⟩

end

/-- Settles O38: the empty queue, each event, the shared-memory window, the mapped PROM. -/
theorem stepWaitsAndTakesEvents : Obligations.StepWaitsAndTakesEvents := by
  intro s rest e
  refine ⟨fun h => step_of_fetch_idle (fetch_of_nil h), fun h => ?event, fun _ => rfl, rfl, fun _ => rfl, fun _ => rfl,
    fun _ => rfl, fun nim tcm dtc => ?gateArray, fun ealo eahi => ?promMap, fun b => ?memEnable,
    fun o b hv hm ho => applyEvent_shmem_of_some (sharedOffset_of_open hv hm ho) b,
    fun addr b h => applyEvent_shmem_of_none (sharedOffset_of_closed h) b, fun port v a => ?prom⟩
  case prom => exact fun hd => step_prom hd
  case event => rw [step_of_fetch_event (fetch_of_event h), advance_of_cons h]
  case gateArray =>
    rw [applyEvent_gateArray]
    exact ⟨fun hv => if_pos hv, fun hv => if_neg hv⟩
  case promMap =>
    rw [applyEvent_promMap]
    exact ⟨fun hv => if_pos hv, fun hv => if_neg hv⟩
  case memEnable =>
    rw [applyEvent_memEnable]
    exact ⟨fun hv => if_pos hv, fun h3 h13 => if_neg (not_or.2 ⟨h3, h13⟩)⟩

end Sys2Proof.Proofs
end

section
/-! Proofs of the family 10_state, the layer of facts: the state after a hard reset, and what each operation does to `BNRY`
(spec/10_state.md R35, R53). -/

namespace Sys2Proof.Machine

section
variable (s : State)

/-! ### The state after a hard reset -/

/-- With every cause masked the core requests nothing, so that the Gate Array term alone is left (R392). -/
theorem irqLevelFor_of_masked (h : s.imr = 0) (isr : Byte) :
    irqLevelFor s isr = (decide (s.cfg.variant = .el3c503) && s.gaDtc && !s.gaTcm) := by
  have hreq : coreRequest isr s.imr = false := by rw [h]; simp [coreRequest]
  cases hv : s.cfg.variant <;> simp [irqLevelFor, hv, hreq]

/-- A hard reset is the aggregation pass on `State.reset` but for what no reset drives: the input levels, `ealo`, `eahi`,
the configuration and the model's own fields, with one unconditional `setLevel` call. -/
theorem hardReset_eq : hardReset s = updateIrq { State.reset with
    linkUp := s.linkUp, running := s.running, gaNim := s.gaNim, gaTcm := s.gaTcm, gaDtc := s.gaDtc
    ealo := s.ealo, eahi := s.eahi, cfg := s.cfg, inputs := s.inputs, netAnswers := s.netAnswers
    freeCount := s.freeCount, reply := s.reply, netTx := s.netTx, loopOut := s.loopOut
    irqCalls := ⟨s.cfg.irqNum, false⟩ :: s.irqCalls } := by
  have hisr : setBits 0 isrRst = 0x80 := by decide
  have hdcr : clearLas 0 = 0 := by decide
  have htcr : clearLb 0 = 0 := by decide
  simp only [hardReset, softReset, hisr, hdcr, htcr]
  rfl

theorem hardReset_bnry : (hardReset s).bnry = 0 := rfl

/-! ### What a receive can do -/

/-- A missed packet moves `CNTR2` only. -/
theorem countMissed_cases : ∃ n, countMissed s = { s with cntr2 := n } := by
  unfold countMissed
  split
  · exact ⟨_, rfl⟩
  · exact ⟨s.cntr2, rfl⟩

/-- The tail of a receive writes local RAM, `ISR`, `CURR` and `RSR`, and ends with the aggregation pass. -/
theorem finishReceive_cases (start rsr : Byte) (len : Nat) : ∃ m isr curr rsr',
    finishReceive s start rsr len = updateIrq { s with ram := m, isr := isr, curr := curr, rsr := rsr' } := by
  cases h : rsrIntact rsr with
  | true => exact ⟨_, _, _, _, finishReceive_intact s start rsr len h⟩
  | false => exact ⟨s.ram, _, s.curr, _, finishReceive_error s start rsr len h⟩

/-- A receive changes nothing, or local RAM, `ISR`, `CURR`, `RSR`, `CLDA` and `CNTR2` before the aggregation pass. -/
theorem netRx_cases (frame : List Byte) : netRx s frame = s ∨ ∃ m isr curr rsr clda cntr2,
    netRx s frame = updateIrq { s with
      ram := m, isr := isr, curr := curr, rsr := rsr, clda := clda, cntr2 := cntr2 } := by
  unfold netRx
  split
  · simp only []
    split
    · exact .inl rfl
    · right
      split
      · obtain ⟨n, hn⟩ := countMissed_cases s
        rw [hn]
        obtain ⟨m, isr, curr, rsr, h⟩ := finishReceive_cases _ _ _ _
        exact ⟨m, isr, curr, rsr, s.clda, n, h⟩
      · obtain ⟨m, c, -, ⟨hst, -⟩ | ⟨hst, -⟩⟩ := storeFrame_cases s (padFrame frame)
        all_goals
          rw [hst]
          obtain ⟨m', isr, curr, rsr, h⟩ := finishReceive_cases _ _ _ _
          exact ⟨m', isr, curr, rsr, c, s.cntr2, h⟩
  · exact .inl rfl

/-! ### `BNRY` under each shared operation -/

@[simp] theorem startStop_bnry (stp sta : Bool) : (startStop s stp sta).bnry = s.bnry := rfl
@[simp] theorem selectPage_bnry (ps : BitVec 2) : (selectPage s ps).bnry = s.bnry := rfl
@[simp] theorem splitAccess_bnry (w : Bool) (port : Nat) (v : Word) : (splitAccess s w port v).bnry = s.bnry := rfl

@[simp] theorem localWrite16_bnry (a v : Word) : (localWrite16 s a v).bnry = s.bnry := by simp [localWrite16]

@[simp] theorem promRead_bnry (wide : Bool) (a : Nibble) : (promRead s wide a).bnry = s.bnry := by
  obtain ⟨n, r, h⟩ := promRead_eq s wide a
  rw [h]

@[simp] theorem txEngine_bnry : (txEngine s).bnry = s.bnry := by
  obtain ⟨tsr, rsr, cause, fifo, wp, loopOut, netTx, answers, count, h, -, -⟩ := txEngine_cases s
  rw [h, updateIrq_bnry]

@[simp] theorem transmitTrigger_bnry (txp : Bool) : (transmitTrigger s txp).bnry = s.bnry := by
  rcases transmitTrigger_cases s txp with ⟨h, -⟩ | ⟨h, -⟩ <;> simp [h]

@[simp] theorem remoteCommand_bnry (rd : BitVec 3) : (remoteCommand s rd).bnry = s.bnry := by
  rw [remoteCommand_eq]

@[simp] theorem dmaStep_bnry : (dmaStep s).bnry = s.bnry := by
  rcases dmaStep_cases s with ⟨-, h⟩ | ⟨-, h⟩ <;> simp [h]

@[simp] theorem netRx_bnry (frame : List Byte) : (netRx s frame).bnry = s.bnry := by
  rcases netRx_cases s frame with h | ⟨m, isr, curr, rsr, clda, cntr2, h⟩ <;> simp [h]

end

/-! ### `BNRY` under events and instructions -/

/-- No event but a hard reset changes `BNRY`. -/
theorem applyEvent_bnry (s : State) {e : Event} (he : e ≠ .hardReset) : (applyEvent e s).bnry = s.bnry := by
  cases e with
  | netRx frame => exact netRx_bnry s frame
  | hardReset => exact absurd rfl he
  | linkUp b => rfl
  | run b => rfl
  | netAnswer r => rfl
  | gateArray nim tcm dtc => rw [applyEvent_gateArray]; split <;> rfl
  | promMap ealo eahi => rw [applyEvent_promMap]; split <;> rfl
  | memEnable b => rw [applyEvent_memEnable]; split <;> rfl
  | shmemRead addr =>
    cases h : sharedOffset s addr with
    | none => rw [(applyEvent_shmem_of_none h 0).1]
    | some o => rw [(applyEvent_shmem_of_some h 0).1]
  | shmemWrite addr b =>
    cases h : sharedOffset s addr with
    | none => rw [(applyEvent_shmem_of_none h b).2]
    | some o => rw [(applyEvent_shmem_of_some h b).2]

/-- The outcome, where it is a next state, has in the field `f` the value of `s`. -/
def KeepsField {α : Type} (f : State → α) (s : State) (o : Host.Outcome State Fault Refusal) : Prop :=
  ∀ t, o = .next t → f t = f s

section
variable {α : Type} {f : State → α} {s : State}

@[simp] theorem keepsField_next {u : State} : KeepsField f s (.next u) ↔ f u = f s := by simp [KeepsField]

@[simp] theorem keepsField_refused {r : Refusal} : KeepsField f s (.refused r) := by simp [KeepsField]

end

/-- No instruction but a write of `BNRY` changes it. A case that is not named writes fields given in its meaning itself, so
that `BNRY` is kept by definition. -/
theorem exec_keepsBnry (s : State) {i : Instr} (hi : ∀ d, i ≠ .p0wBnry d) : KeepsField State.bnry s (exec i s) := by
  cases i
  case p0wBnry d => exact absurd rfl (hi d)
  case wrCr d => simp [exec, execWrCr]
  case crTxp => exact keepsField_next.2 (transmitTrigger_bnry s true)
  case crRdInvalid => exact keepsField_next.2 (remoteCommand_bnry s 0)
  case crRdRead => exact keepsField_next.2 (remoteCommand_bnry s 1)
  case crRdWrite => exact keepsField_next.2 (remoteCommand_bnry s 2)
  case crRdSend => exact keepsField_next.2 (remoteCommand_bnry s 3)
  case crRdAbort rd => exact keepsField_next.2 (remoteCommand_bnry s rd)
  case dataRd8 => rcases execDataRd8_cases s with ⟨-, -, h⟩ | ⟨-, -, h⟩ | ⟨-, h⟩ <;> simp [exec, h]
  case dataRd16 => rcases execDataRd16_cases s with ⟨-, -, h⟩ | ⟨-, -, h⟩ | ⟨-, h⟩ <;> simp [exec, h]
  case dataWr8 v => rcases execDataWr8_cases s v with ⟨-, -, h⟩ | ⟨-, -, h⟩ | ⟨-, h⟩ <;> simp [exec, h]
  case dataWr16 v => rcases execDataWr16_cases s v with ⟨-, -, h⟩ | ⟨-, -, h⟩ | ⟨-, h⟩ <;> simp [exec, h]
  all_goals exact keepsField_next.2 rfl

/-- What an instruction can do to `BNRY`. -/
theorem exec_bnry {i : Instr} {s t : State} (h : exec i s = .next t) : i = .p0wBnry t.bnry ∨ t.bnry = s.bnry := by
  by_cases hi : ∃ d, i = .p0wBnry d
  · obtain ⟨d, rfl⟩ := hi
    cases h
    exact .inl rfl
  · exact .inr (exec_keepsBnry s (not_exists.1 hi) t h)

end Sys2Proof.Machine
end

section
/-! Proofs of the family 10_state: the statements. -/

namespace Sys2Proof.Proofs

open Sys2Proof.Machine Sys2Proof.Safety

/-- Settles O46: of the things that a step can be, only an instruction that writes `BNRY` and a hard reset do not keep it. -/
theorem onlyHostMovesBoundary : Obligations.OnlyHostMovesBoundary := by
  intro s t h hne
  rcases step_cases h with ⟨-, rfl⟩ | ⟨i, hf, hx⟩ | ⟨e, hf, rfl⟩ | ⟨wide, a, -, rfl⟩ | ⟨-, rfl⟩ | ⟨w, port, v, -, rfl⟩
  · exact absurd rfl hne
  · rcases exec_bnry hx with rfl | hkept
    · exact .inl hf
    · exact absurd hkept hne
  · by_cases he : e = .hardReset
    · subst he
      exact .inr ⟨hf, hardReset_bnry _⟩
    · exact absurd (applyEvent_bnry s.advance he) hne
  · exact absurd (promRead_bnry s.advance wide a) hne
  · exact absurd rfl hne
  · exact absurd (splitAccess_bnry s.advance w port v) hne

/-- Settles O41: by `hardReset_eq` the values of `State.reset`, with the pass giving `ISR` and the line. -/
theorem hardResetGivesTheTabulatedState : Obligations.HardResetGivesTheTabulatedState := by
  refine ⟨fun s => ?_, by decide⟩
  have hcnt : cntBit State.reset = false := by decide
  have hisr : State.reset.isr.getLsbD 5 = false := by decide
  rw [hardReset_eq]
  exact ⟨rfl, isrWithCnt_of_clear _ hcnt hisr, rfl, rfl, rfl, rfl, rfl, rfl, rfl, rfl, rfl, rfl, rfl, rfl, rfl, rfl, rfl,
    rfl, rfl, rfl, rfl, rfl, rfl, rfl, rfl, rfl, rfl, rfl, rfl, rfl, Memory.read_nil, irqLevelFor_of_masked _ rfl _,
    rfl, rfl, rfl⟩

/-- Settles O42: each component of the invariant on the literal fields of `State.reset`. -/
theorem resetStateIsLegal : Obligations.ResetStateIsLegal where
  reserved := by decide
  idleTransmitter := by decide
  counters := by decide
  status := by decide
  halt := by decide
  line := by decide
  ram := reset_wf

end Sys2Proof.Proofs
end

section
/-! Proofs of the family 20_memory, the layer of facts: values of the CRC that the spec writes out, and the hash as a
function of the CRC (spec/20_memory.md R97, spec/44_receive.md R289, R292). -/

namespace Sys2Proof.Machine

theorem crc32_nil : crc32 [] = 0 := by simp [crc32, rawCrc]

/-- The check value of R97: the ASCII digits `123456789`. -/
theorem crc32_asciiDigits : crc32 [0x31, 0x32, 0x33, 0x34, 0x35, 0x36, 0x37, 0x38, 0x39] = 0xCBF43926 := by
  simp [crc32, rawCrc, crcByte, crcBit]

/-- The column `CRC32(d)` of R292's table of destination addresses. -/
theorem crc32_hashTable :
    crc32 [0x01, 0x00, 0x5E, 0x00, 0x00, 0x01] = 0x264B3A01 ∧
    crc32 [0x01, 0x00, 0x5E, 0x00, 0x00, 0xFB] = 0x7B232103 ∧
    crc32 [0x33, 0x33, 0x00, 0x00, 0x00, 0x01] = 0xA2AA2660 ∧
    crc32 [0x01, 0x80, 0xC2, 0x00, 0x00, 0x00] = 0x173CE419 ∧
    crc32 [0xFF, 0xFF, 0xFF, 0xFF, 0xFF, 0xFF] = 0x41D9ED00 ∧
    crc32 [0x09, 0x00, 0x2B, 0x00, 0x00, 0x04] = 0xE6931C4D ∧
    crc32 [0x01, 0x00, 0x5E, 0x7F, 0xFF, 0xFA] = 0xC0ADC38A := by
  simp [crc32, rawCrc, crcByte, crcBit]

/-- R289: the hash depends on the address through its `CRC32` alone, so the CRC column of R292 gives the index column. -/
theorem mcHash_of_crc32 {d : List Byte} {c : BitVec 32} {k : BitVec 6} (hcrc : crc32 d = c)
    (hindex : bitrev6 ((c ^^^ 0xFFFFFFFF).extractLsb' 0 6) = k) : mcHash d = k := by
  rw [mcHash, hcrc, hindex]

end Sys2Proof.Machine
end

section
/-! Proofs of the family 20_memory: the statements. -/

namespace Sys2Proof.Proofs

open Sys2Proof.Machine

/-- Settles O57: the CRC of each sequence by its value in R97 or R292, each index from the CRC of its row. -/
theorem crcCheckValuesAndHashPairs : Obligations.CrcCheckValuesAndHashPairs := by
  obtain ⟨hAllHosts, hMdns, hIpv6AllNodes, hBridges, hBroadcast, hIso, hSsdp⟩ := crc32_hashTable
  exact ⟨crc32_asciiDigits, crc32_nil,
    mcHash_of_crc32 hAllHosts (by decide), mcHash_of_crc32 hMdns (by decide),
    mcHash_of_crc32 hIpv6AllNodes (by decide), mcHash_of_crc32 hBridges (by decide),
    mcHash_of_crc32 hBroadcast (by decide), mcHash_of_crc32 hIso (by decide),
    mcHash_of_crc32 hSsdp (by decide)⟩

end Sys2Proof.Proofs
end

section
/-! Proofs of the family 30_encoding, the layer of facts: the decoder and the encoder (spec/30_encoding.md R101 to R106). -/

namespace Sys2Proof

open Sys2Proof.Machine

/-! ### Register and port words -/

/-- The data byte of a read is ignored. -/
theorem decodeReg_of_read {w : BitVec 7} (h : w.getLsbD 6 = false) (d e : Byte) : decodeReg w d = decodeReg w e := by
  simp only [decodeReg, h]
  rfl

/-- The bytes of a register access decode to what its word decodes to. -/
theorem decodeBytes_regacc (w : BitVec 7) (d : Byte) : decodeBytes (BusWord.regacc w d).toBytes = .ok (decodeReg w d) := by
  have hport : (w.setWidth 8).getLsbD 7 = false := by simp
  have hword : (w.setWidth 8).setWidth 7 = w := by simp
  have hdir : (w.setWidth 8).getLsbD 6 = w.getLsbD 6 := by simp
  cases hw : w.getLsbD 6 with
  | true => simp only [decodeBytes, BusWord.toBytes, busWordOfBytes, hport, hdir, hword, hw, if_true]
  | false =>
    simp only [decodeBytes, BusWord.toBytes, busWordOfBytes, hport, hdir, hword, hw, if_true, Bool.false_eq_true,
      if_false, decodeReg_of_read hw 0 d]

/-- The data of a port read are ignored. -/
theorem decodePort_of_read {w : BitVec 3} (h : w.getLsbD 2 = false) (u v : Word) : decodePort w u = decodePort w v := by
  simp only [decodePort, h]
  rfl

/-- The first byte of a port access: bit 7 set, bits 6:3 clear, the word in bits 2:0. -/
theorem portByte_fields : ∀ w : BitVec 3,
    ((0x10 : BitVec 5) ++ w).getLsbD 7 = true ∧ ((0x10 : BitVec 5) ++ w).extractLsb' 3 4 = 0 ∧
    ((0x10 : BitVec 5) ++ w).setWidth 3 = w ∧
    ((0x10 : BitVec 5) ++ w).getLsbD 2 = w.getLsbD 2 ∧ ((0x10 : BitVec 5) ++ w).getLsbD 0 = w.getLsbD 0 := by decide

/-- Of the 8-bit writes, the one that is not of the reset port is of the data port. -/
theorem portWord_narrow_write : ∀ w : BitVec 3, w ≠ 6 → w.getLsbD 2 = true → w.getLsbD 0 = false → w = 4 := by decide

/-- The bytes of a port access decode to what its word decodes to, but for an 8-bit write of the reset port, which carries
one byte of its data only. -/
theorem decodeBytes_portacc {w : BitVec 3} (hw : w ≠ 6) (v : Word) :
    decodeBytes (BusWord.portacc w v).toBytes = .ok (decodePort w v) := by
  obtain ⟨hport, hzero, hword, hwrite, hwide⟩ := portByte_fields w
  simp only [decodeBytes, BusWord.toBytes, busWordOfBytes, hport, hzero, hword, hwrite, hwide]
  cases h2 : w.getLsbD 2 with
  | false => exact congrArg Except.ok (decodePort_of_read h2 0 v)
  | true =>
    cases h0 : w.getLsbD 0 with
    | true => exact congrArg (fun u => Except.ok (decodePort w u)) (wordOf_hi_lo v)
    | false =>
      obtain rfl := portWord_narrow_write w hw h2 h0
      have hlow : ((v.setWidth 8).setWidth 16).setWidth 8 = v.setWidth 8 := by simp
      exact congrArg (fun b => Except.ok (Instr.dataWr8 b)) hlow

/-! ### Encodings -/

/-- An encoding has the format of the instruction's row. -/
theorem encode_fmt (i : Instr) : (encode i).fmt = i.row.fmt := by cases i <;> rfl

/-- Decoding inverts encoding on the register and port instructions: each is the entry of its table at its own word. -/
theorem decodeWord_encode {i : Instr} (h : i.row.fmt ≠ 1) : decodeWord (encode i) = [i] := by
  cases i
  case crRdInvalid => exact absurd rfl h
  case crRdRead => exact absurd rfl h
  case crRdWrite => exact absurd rfl h
  case crRdSend => exact absurd rfl h
  case crRdAbort rd => exact absurd rfl h
  case crTxp => exact absurd rfl h
  case crSta b => exact absurd rfl h
  case crStp b => exact absurd rfl h
  case crPs ps => exact absurd rfl h
  case dataWr8 v =>
    have hv : (v.setWidth 16).setWidth 8 = v := by simp
    exact congrArg (fun b => [Instr.dataWr8 b]) hv
  all_goals rfl

/-- No instruction is encoded as an 8-bit write of the reset port. -/
theorem encode_ne_narrow_reset (i : Instr) (v : Word) : encode i ≠ .portacc 6 v := by
  cases i <;> simp [encode]

/-- A register or port instruction is encoded as a word of its port that decodes to it. -/
theorem encode_cases {i : Instr} (h : i.row.fmt ≠ 1) :
    (∃ w d, encode i = .regacc w d ∧ decodeReg w d = i) ∨
    (∃ w v, encode i = .portacc w v ∧ w ≠ 6 ∧ decodePort w v = i) := by
  have hdec : decodeWord (encode i) = [i] := decodeWord_encode h
  have hfmt : (encode i).fmt ≠ 1 := encode_fmt i ▸ h
  cases he : encode i with
  | regacc w d =>
    rw [he] at hdec
    exact .inl ⟨w, d, rfl, List.singleton_inj.1 hdec⟩
  | portacc w v =>
    rw [he] at hdec
    exact .inr ⟨w, v, rfl, fun hw => encode_ne_narrow_reset i v (hw ▸ he), List.singleton_inj.1 hdec⟩
  | crval d => exact absurd (congrArg BusWord.fmt he) hfmt

/-- The bytes of an encoded register or port instruction decode to it. -/
theorem decodeBytes_encode {i : Instr} (h : i.row.fmt ≠ 1) : decodeBytes (encode i).toBytes = .ok i := by
  rcases encode_cases h with ⟨w, d, he, hi⟩ | ⟨w, v, he, hw, hi⟩
  · rw [he, decodeBytes_regacc, hi]
  · rw [he, decodeBytes_portacc hw, hi]

/-! ### The rows of the opcode table -/

/-- The row of the opcode table that an access word matches: for offset 0 a `CR` row, which ignores `PS` (R102), otherwise
the row of the word itself. -/
def regRow (w : BitVec 7) : Row :=
  let mask : Byte := if w.extractLsb' 0 4 = 0 then 0x4F else 0x7F
  ⟨0, mask, w.setWidth 8 &&& mask⟩

/-- What an access word decodes to, whatever its data byte is, is the instruction of its row: checked for each of the 128
words. -/
theorem decodeReg_row (w : BitVec 7) (d : Byte) : (decodeReg w d).row = regRow w := by
  obtain ⟨n, hn, rfl⟩ : ∃ n < 128, w = BitVec.ofNat 7 n := ⟨w.toNat, w.isLt, by simp⟩
  interval_cases n <;> rfl

theorem decodePort_fmt (w : BitVec 3) (v : Word) : (decodePort w v).row.fmt = 2 := by
  unfold decodePort
  split_ifs <;> rfl

/-- A word that matches the row of another one has its offset, since every mask keeps bits 3:0. -/
theorem offset_eq_of_match {w x : BitVec 7} {mask : Byte} (hmask : mask = 0x4F ∨ mask = 0x7F)
    (h : w.setWidth 8 &&& mask = x.setWidth 8 &&& mask) : w.extractLsb' 0 4 = x.extractLsb' 0 4 := by
  have hkeep : ∀ y : BitVec 7, (y.setWidth 8 &&& mask).extractLsb' 0 4 = y.extractLsb' 0 4 := by
    rcases hmask with rfl | rfl <;> decide
  rw [← hkeep w, ← hkeep x, h]

/-- The rows of the register accesses are disjoint: a word matches no row but its own. -/
theorem regRow_of_match {w x : BitVec 7} (h : w.setWidth 8 &&& (regRow x).mask = (regRow x).pat) :
    regRow x = regRow w := by
  have hoffset : w.extractLsb' 0 4 = x.extractLsb' 0 4 := offset_eq_of_match (ite_eq_or_eq _ _ _) h
  simp only [regRow] at h ⊢
  rw [hoffset, h]

/-- The row of a register instruction is that of some access word: the one it is encoded with. -/
theorem exists_regRow_of_fmt {i : Instr} (h : i.row.fmt = 0) : ∃ w, i.row = regRow w := by
  rcases encode_cases (i := i) (by simp [h]) with ⟨w, d, -, hi⟩ | ⟨w, v, -, -, hi⟩
  · exact ⟨w, by rw [← hi, decodeReg_row]⟩
  · rw [← hi, decodePort_fmt] at h
    cases h

/-! ### The commands of a `CR` byte -/

/-- The masks of the five remote-DMA rows of R105, as values of the field `RD`. -/
theorem rdMask_iff : ∀ d : Byte,
    (d &&& 0x38 = 0x00 ↔ d.extractLsb' 3 3 = 0) ∧ (d &&& 0x38 = 0x08 ↔ d.extractLsb' 3 3 = 1) ∧
    (d &&& 0x38 = 0x10 ↔ d.extractLsb' 3 3 = 2) ∧ (d &&& 0x38 = 0x18 ↔ d.extractLsb' 3 3 = 3) ∧
    (d &&& 0x20 = 0x20 ↔ (d.extractLsb' 3 3).getLsbD 2 = true) := by decide +kernel

/-- The one remote-DMA row that a byte matches. -/
theorem eq_decodeRd_iff (d : Byte) (i : Instr) : i = decodeRd d ↔
    (d &&& 0x38 = 0x00 ∧ i = .crRdInvalid) ∨ (d &&& 0x38 = 0x08 ∧ i = .crRdRead) ∨
    (d &&& 0x38 = 0x10 ∧ i = .crRdWrite) ∨ (d &&& 0x38 = 0x18 ∧ i = .crRdSend) ∨
    (d &&& 0x20 = 0x20 ∧ i = .crRdAbort (d.extractLsb' 3 3)) := by
  obtain ⟨hinvalid, hread, hwrite, hsend, habort⟩ := rdMask_iff d
  rw [hinvalid, hread, hwrite, hsend, habort, decodeRd]
  generalize d.extractLsb' 3 3 = rd
  obtain ⟨n, hn, rfl⟩ : ∃ n < 8, rd = BitVec.ofNat 3 n := ⟨rd.toNat, rd.isLt, by simp⟩
  interval_cases n <;> simp

/-- The mask of the transmit row of R105, as bit 2. -/
theorem txpMask_iff : ∀ d : Byte, d &&& 0x04 = 0x04 ↔ d.getLsbD 2 = true := by decide +kernel

/-- The members of the list of commands of a byte. -/
theorem mem_decodeCrval (d : Byte) (i : Instr) : i ∈ decodeCrval d ↔
    i = .crSta (d.getLsbD 1) ∨ i = .crStp (d.getLsbD 0) ∨ i = .crPs (d.extractLsb' 6 2) ∨
    (d.getLsbD 2 = true ∧ i = .crTxp) ∨ i = decodeRd d := by
  simp only [decodeCrval, List.mem_append, List.mem_cons, List.not_mem_nil, or_false, List.mem_ite_nil_right]
  tauto

/-- A command is among those that its own byte carries. -/
theorem mem_decodeWord_encode_command {i : Instr} (hwf : WellFormed i) (h : i.row.fmt = 1) :
    i ∈ decodeWord (encode i) := by
  cases i
  case crRdInvalid => decide
  case crRdRead => decide
  case crRdWrite => decide
  case crRdSend => decide
  case crRdAbort rd => revert rd; decide
  case crTxp => decide
  case crSta b => revert b; decide
  case crStp b => revert b; decide
  case crPs ps => revert ps; decide
  all_goals cases h

end Sys2Proof
end

section
/-! Proofs of the family 30_encoding: the statements about the decoder and the encoder. -/

namespace Sys2Proof.Proofs

/-- Settles O32: commands by membership in what their byte carries, the others by the tables of the decoder. -/
theorem decodeInvertsEncode : Obligations.DecodeInvertsEncode := by
  intro i hwf
  refine ⟨?_, encode_fmt i, fun h => ⟨decodeWord_encode h, decodeBytes_encode h⟩⟩
  by_cases h : i.row.fmt = 1
  · exact mem_decodeWord_encode_command hwf h
  · simp [decodeWord_encode h]

/-- Settles O33: the row of a register instruction is that of its own word, and these rows are disjoint. -/
theorem registerWordMatchesExactlyOneRow : Obligations.RegisterWordMatchesExactlyOneRow := by
  intro w d
  rw [decodeReg_row]
  refine ⟨⟨rfl, rfl⟩, fun j hfmt hmatch => ?_⟩
  obtain ⟨x, hx⟩ := exists_regRow_of_fmt hfmt
  rw [hx] at hmatch ⊢
  exact regRow_of_match hmatch

/-- Settles O34: the list by its members, the remote-DMA row by the masks of the five rows. -/
theorem commandByteCarriesExactlyItsRows : Obligations.CommandByteCarriesExactlyItsRows := by
  intro d i
  rw [mem_decodeCrval, eq_decodeRd_iff, txpMask_iff]

/-- Settles O35: the decoder evaluated on the words. -/
theorem sampleWordsDecodeAsTabulated : Obligations.SampleWordsDecodeAsTabulated :=
  ⟨rfl, rfl, rfl, rfl, rfl, rfl, rfl, rfl, rfl, rfl, rfl, rfl⟩

end Sys2Proof.Proofs
end

section
/-! Proofs of the family 30_encoding, the layer of facts: an encoded operation placed next, the commands of a `CR` byte run
one after another, and what each operation does to `CR.PS` (spec/30_encoding.md R101, R102, R105). -/

namespace Sys2Proof.Machine

/-! ### An encoded operation placed next -/

/-- The fields of a register access word give it back. -/
theorem regWord_fields : ∀ w : BitVec 7, regWord (w.getLsbD 6) (w.extractLsb' 4 2) (w.extractLsb' 0 4) = w := by
  decide +kernel

/-- The fields of a port access word give it back. -/
theorem portWord_fields : ∀ w : BitVec 3, portWord (w.getLsbD 2) (w.getLsbD 1) (w.getLsbD 0) = w := by decide

/-- A register word placed next is fetched as what it decodes to: `CR.PS` has the page that it is for. -/
theorem fetch_placeWord_regacc (s : State) (w : BitVec 7) (d : Byte) :
    fetch (placeWord s (.regacc w d)) = .instr (decodeReg w d) := by
  rw [fetch_of_access (rest := s.inputs) rfl]
  simp only [accessOf, fetchAccess, regInstr, placeWord, crPs_setPs, regWord_fields]

/-- A port word placed next is fetched as what it decodes to. -/
theorem fetch_placeWord_portacc (s : State) (w : BitVec 3) (v : Word) :
    fetch (placeWord s (.portacc w v)) = .instr (decodePort w v) := by
  have hword := portWord_fields w
  rw [fetch_of_access (rest := s.inputs) rfl]
  cases h : w.getLsbD 1 <;> rw [h] at hword <;>
    simp only [accessOf, fetchAccess, portInstr, h, hword, if_true, Bool.false_eq_true, if_false]

/-- A placed operation is taken out of the queue by its step. -/
theorem placeWord_advance (s : State) (w : BusWord) :
    (placeWord s w).advance = { placeWord s w with inputs := s.inputs, reply := none } := by
  cases w <;> rfl

/-- The encoding of a register or port instruction, placed next, is fetched as that instruction. -/
theorem fetch_placeWord_encode (s : State) {i : Instr} (h : i.row.fmt ≠ 1) :
    fetch (placeWord s (encode i)) = .instr i := by
  rcases encode_cases h with ⟨w, d, he, hi⟩ | ⟨w, v, he, -, hi⟩
  · rw [he, fetch_placeWord_regacc, hi]
  · rw [he, fetch_placeWord_portacc, hi]

/-! ### The commands of a `CR` byte -/

theorem runAll_cons_of_next {i : Instr} {is : List Instr} {s t : State} (h : exec i s = .next t) :
    Safety.runAll (i :: is) s = Safety.runAll is t := by
  rw [Safety.runAll, h]

@[simp] theorem setStartStop_setStartStop (c : Byte) (a b a' b' : Bool) :
    setStartStop (setStartStop c a b) a' b' = setStartStop c a' b' := by
  rw [setStartStop, crPs_setStartStop, crRd_setStartStop, crTxp_setStartStop]
  rfl

/-- `ISR.RST` after `STA` and then `STP`: a start under `STP` does nothing until the stop bit is cleared; otherwise a stop
sets the flag whatever the start did, and without a stop the start alone can clear it (R233). -/
theorem rstAfterStartStop_sta_stp (isr cr : Byte) (stp sta : Bool) :
    rstAfterStartStop (rstAfterStartStop isr cr (crStp cr) sta) (setStartStop cr (crStp cr) sta) stp sta =
      rstAfterStartStop isr cr stp sta := by
  have hset : setBits (clearBits isr isrRst) isrRst = setBits isr isrRst := by
    revert isr
    decide +kernel
  cases h0 : crStp cr with
  | true => simp [rstAfterStartStop, h0]
  | false =>
    cases stp with
    | true =>
      simp only [rstAfterStartStop, h0]
      split_ifs <;> simp_all
    | false => simp [rstAfterStartStop, h0]

/-- `STA` stored first, then `STP`, is phase 1 with both. -/
theorem startStop_sta_stp (s : State) (stp sta : Bool) :
    startStop (startStop s (crStp s.cr) sta) stp sta = startStop s stp sta := by
  simp only [startStop, setStartStop_setStartStop, rstAfterStartStop_sta_stp]

/-- The remote-DMA row that a byte matches runs phase 3 with the field of the byte. -/
theorem exec_decodeRd (s : State) (d : Byte) : exec (decodeRd d) s = .next (remoteCommand s (crRd d)) := by
  rw [decodeRd, crRd]
  generalize d.extractLsb' 3 3 = rd
  obtain ⟨n, hn, rfl⟩ : ∃ n < 8, rd = BitVec.ofNat 3 n := ⟨rd.toNat, rd.isLt, by simp⟩
  interval_cases n <;> rfl

/-- The transmit row runs phase 2; a byte without it leaves phase 2 out. -/
theorem runAll_txp (s : State) (txp : Bool) (is : List Instr) :
    Safety.runAll ((if txp then [.crTxp] else []) ++ is) s = Safety.runAll is (transmitTrigger s txp) := by
  cases txp with
  | false => rfl
  | true => exact runAll_cons_of_next (i := .crTxp) rfl

theorem decodeCrval_eq (d : Byte) : decodeCrval d = .crSta (crSta d) :: .crStp (crStp d) ::
    ((if crTxp d then [.crTxp] else []) ++ [decodeRd d, .crPs (crPs d)]) := rfl

/-- The rows `CR.STA` and `CR.STP` run one after the other are phase 1. -/
theorem runAll_sta_stp (s : State) (stp sta : Bool) (is : List Instr) :
    Safety.runAll (.crSta sta :: .crStp stp :: is) s = Safety.runAll is (startStop s stp sta) := by
  have hsta : crSta (startStop s (crStp s.cr) sta).cr = sta := crSta_setStartStop _ _ _
  rw [runAll_cons_of_next (t := startStop s (crStp s.cr) sta) rfl]
  refine runAll_cons_of_next (congrArg Host.Outcome.next ?_)
  rw [hsta, startStop_sta_stp]

/-- The commands of a byte, run one after another, are the four phases of R230 on its fields. -/
theorem runAll_decodeCrval (s : State) (d : Byte) : Safety.runAll (decodeCrval d) s =
    .next (selectPage (remoteCommand (transmitTrigger (startStop s (crStp d) (crSta d)) (crTxp d)) (crRd d)) (crPs d)) := by
  rw [decodeCrval_eq, runAll_sta_stp, runAll_txp, runAll_cons_of_next (exec_decodeRd _ d)]
  exact runAll_cons_of_next rfl

/-! ### `CR.PS` under each shared operation -/

section
variable (s : State)

@[simp] theorem splitAccess_cr (w : Bool) (port : Nat) (v : Word) : (splitAccess s w port v).cr = s.cr := rfl
@[simp] theorem softReset_crPs : crPs (softReset s).cr = 0 := (by decide : crPs crReset = 0)
@[simp] theorem hardReset_crPs : crPs (hardReset s).cr = 0 := softReset_crPs _

@[simp] theorem localWrite16_cr (a v : Word) : (localWrite16 s a v).cr = s.cr := by simp [localWrite16]

@[simp] theorem promRead_cr (wide : Bool) (a : Nibble) : (promRead s wide a).cr = s.cr := by
  obtain ⟨n, r, h⟩ := promRead_eq s wide a
  rw [h]

@[simp] theorem netRx_cr (frame : List Byte) : (netRx s frame).cr = s.cr := by
  rcases netRx_cases s frame with h | ⟨m, isr, curr, rsr, clda, cntr2, h⟩ <;> simp [h]

@[simp] theorem startStop_crPs (stp sta : Bool) : crPs (startStop s stp sta).cr = crPs s.cr := crPs_setStartStop _ _ _

@[simp] theorem selectPage_crPs (ps : BitVec 2) : crPs (selectPage s ps).cr = ps := crPs_setPs _ _

@[simp] theorem txEngine_crPs : crPs (txEngine s).cr = crPs s.cr := by
  obtain ⟨tsr, rsr, cause, fifo, wp, loopOut, netTx, answers, count, h, -, -⟩ := txEngine_cases s
  rw [h, updateIrq_cr, crPs_setTxp]

@[simp] theorem transmitTrigger_crPs (txp : Bool) : crPs (transmitTrigger s txp).cr = crPs s.cr := by
  rcases transmitTrigger_cases s txp with ⟨h, -⟩ | ⟨h, -⟩ <;> simp [h]

@[simp] theorem remoteCommand_crPs (rd : BitVec 3) : crPs (remoteCommand s rd).cr = crPs s.cr := by
  rw [remoteCommand_eq, crPs_setRd]

@[simp] theorem dmaStep_crPs : crPs (dmaStep s).cr = crPs s.cr := by
  rcases dmaStep_cases s with ⟨-, h⟩ | ⟨-, h⟩ <;> simp [h]

/-! ### `CR.PS` under events and instructions -/

/-- No event but a hard reset changes `CR`. -/
theorem applyEvent_cr {e : Event} (he : e ≠ .hardReset) : (applyEvent e s).cr = s.cr := by
  cases e with
  | netRx frame => exact netRx_cr s frame
  | hardReset => exact absurd rfl he
  | linkUp b => rfl
  | run b => rfl
  | netAnswer r => rfl
  | gateArray nim tcm dtc => rw [applyEvent_gateArray]; split <;> rfl
  | promMap ealo eahi => rw [applyEvent_promMap]; split <;> rfl
  | memEnable b => rw [applyEvent_memEnable]; split <;> rfl
  | shmemRead addr =>
    cases h : sharedOffset s addr with
    | none => rw [(applyEvent_shmem_of_none h 0).1]
    | some o => rw [(applyEvent_shmem_of_some h 0).1]
  | shmemWrite addr b =>
    cases h : sharedOffset s addr with
    | none => rw [(applyEvent_shmem_of_none h b).2]
    | some o => rw [(applyEvent_shmem_of_some h b).2]

/-- The instructions that give `CR.PS` a value: a `CR` write, its command `CR.PS`, a soft reset. -/
def SetsPage : Instr → Prop
  | .wrCr _ | .crPs _ | .resetRd | .resetWr _ => True
  | _ => False

/-- The other instructions keep `CR.PS`. A case that is not named writes fields given in its meaning itself, `CR` not among
them, so that `CR.PS` is kept by definition. -/
theorem exec_keepsPage {i : Instr} (hi : ¬ SetsPage i) : KeepsField (fun u => crPs u.cr) s (exec i s) := by
  cases i
  case wrCr d => exact absurd trivial hi
  case crPs ps => exact absurd trivial hi
  case resetRd => exact absurd trivial hi
  case resetWr v => exact absurd trivial hi
  case crSta b => exact keepsField_next.2 (startStop_crPs s _ _)
  case crStp b => exact keepsField_next.2 (startStop_crPs s _ _)
  case crTxp => exact keepsField_next.2 (transmitTrigger_crPs s true)
  case crRdInvalid => exact keepsField_next.2 (remoteCommand_crPs s 0)
  case crRdRead => exact keepsField_next.2 (remoteCommand_crPs s 1)
  case crRdWrite => exact keepsField_next.2 (remoteCommand_crPs s 2)
  case crRdSend => exact keepsField_next.2 (remoteCommand_crPs s 3)
  case crRdAbort rd => exact keepsField_next.2 (remoteCommand_crPs s rd)
  case dataRd8 => rcases execDataRd8_cases s with ⟨-, -, h⟩ | ⟨-, -, h⟩ | ⟨-, h⟩ <;> simp [exec, h]
  case dataRd16 => rcases execDataRd16_cases s with ⟨-, -, h⟩ | ⟨-, -, h⟩ | ⟨-, h⟩ <;> simp [exec, h]
  case dataWr8 v => rcases execDataWr8_cases s v with ⟨-, -, h⟩ | ⟨-, -, h⟩ | ⟨-, h⟩ <;> simp [exec, h]
  case dataWr16 v => rcases execDataWr16_cases s v with ⟨-, -, h⟩ | ⟨-, -, h⟩ | ⟨-, h⟩ <;> simp [exec, h]
  all_goals exact keepsField_next.2 rfl

end

/-- What an instruction can do to `CR.PS`. -/
theorem exec_crPs {i : Instr} {s t : State} (h : exec i s = .next t) :
    crPs t.cr = crPs s.cr ∨ (∃ d, i = .wrCr d ∧ crPs t.cr = crPs d) ∨ (∃ ps, i = .crPs ps) ∨
    ((i = .resetRd ∨ ∃ v, i = .resetWr v) ∧ crPs t.cr = 0) := by
  by_cases hi : SetsPage i
  · cases i
    case wrCr d => cases h; exact .inr (.inl ⟨d, rfl, selectPage_crPs _ _⟩)
    case crPs ps => exact .inr (.inr (.inl ⟨ps, rfl⟩))
    case resetRd => cases h; exact .inr (.inr (.inr ⟨.inl rfl, softReset_crPs s⟩))
    case resetWr v => cases h; exact .inr (.inr (.inr ⟨.inr ⟨v, rfl⟩, softReset_crPs s⟩))
    all_goals exact hi.elim
  · exact .inl (exec_keepsPage s hi t h)

/-- A fetched instruction is a register or port instruction, never a command of a `CR` byte by itself (R105). -/
theorem fetch_instr_fmt {s : State} {i : Instr} (h : fetch s = .instr i) : i.row.fmt ≠ 1 := by
  have hreg (w : BitVec 7) (d : Byte) : (decodeReg w d).row.fmt = 0 := congrArg Row.fmt (decodeReg_row w d)
  cases hin : s.inputs with
  | nil => rw [fetch_of_nil hin] at h; cases h
  | cons x rest =>
    cases x with
    | event e => rw [fetch_of_event hin] at h; cases h
    | access a =>
      rw [fetch_of_access hin] at h
      rcases fetchAccess_cases s a with ⟨w, d, hf⟩ | ⟨w, v, hf⟩ | ⟨wide, k, hf⟩ | hf | ⟨w, port, v, hf⟩ | hf
      all_goals rw [hf] at h; cases h
      · simp [hreg]
      · simp [decodePort_fmt]

end Sys2Proof.Machine
end

section
/-! Proofs of the family 30_encoding: the statements about the step and the `CR` write. -/

namespace Sys2Proof.Proofs

open Sys2Proof.Machine

/-- Settles O21: both sides are the four phases on the fields of the byte. -/
theorem commandWriteIsItsCommandsInOrder : Obligations.CommandWriteIsItsCommandsInOrder :=
  fun s d => (runAll_decodeCrval s d).symm

/-- Settles O37: the placed access is fetched as the instruction. -/
theorem stepRunsAnEncodedInstruction : Obligations.StepRunsAnEncodedInstruction := by
  intro s i _ h
  rw [step_of_fetch_instr (fetch_placeWord_encode s h), placeWord_advance]

/-- Settles O47: of the things that a step can be, only a `CR` write and a reset give `CR.PS` a value. -/
theorem onlyCommandWriteOrResetChangesPage : Obligations.OnlyCommandWriteOrResetChangesPage := by
  intro s t h hne
  rcases step_cases h with ⟨-, rfl⟩ | ⟨i, hf, hx⟩ | ⟨e, hf, rfl⟩ | ⟨wide, a, -, rfl⟩ | ⟨-, rfl⟩ | ⟨w, port, v, -, rfl⟩
  · exact absurd rfl hne
  · rcases exec_crPs hx with hkept | ⟨d, rfl, hd⟩ | ⟨ps, rfl⟩ | ⟨rfl | ⟨v, rfl⟩, h0⟩
    · exact absurd hkept hne
    · exact .inl ⟨d, hf, hd⟩
    · exact absurd rfl (fetch_instr_fmt hf)
    · exact .inr ⟨.inl hf, h0⟩
    · exact .inr ⟨.inr (.inl ⟨v, hf⟩), h0⟩
  · by_cases he : e = .hardReset
    · subst he
      exact .inr ⟨.inr (.inr hf), hardReset_crPs _⟩
    · exact absurd (congrArg crPs (applyEvent_cr s.advance he)) hne
  · exact absurd (congrArg crPs (promRead_cr s.advance wide a)) hne
  · exact absurd rfl hne
  · exact absurd (congrArg crPs (splitAccess_cr s.advance w port v)) hne

end Sys2Proof.Proofs
end

section
/-! Proofs of the family 40_registers_page0, the layer of facts: bits of `ISR` under the named updates, and what a register
write does to the line (spec/40_registers_page0.md R142; spec/60_exceptions.md R385). -/

namespace Sys2Proof.Machine

theorem getLsbD_setBits (r m : Byte) (k : Nat) : (setBits r m).getLsbD k = (r.getLsbD k || m.getLsbD k) :=
  BitVec.getLsbD_or

theorem getLsbD_clearBits (r m : Byte) {k : Nat} (hk : k < 8) :
    (clearBits r m).getLsbD k = (r.getLsbD k && !m.getLsbD k) := by simp [clearBits, hk]

/-- A bit that is set stays set while causes are raised. -/
theorem setBits_keeps {r : Byte} {k : Nat} (h : r.getLsbD k = true) (m : Byte) : (setBits r m).getLsbD k = true := by
  rw [getLsbD_setBits, h, Bool.true_or]

theorem setBits_isrRst (r : Byte) : (setBits r isrRst).getLsbD 7 = true :=
  (getLsbD_setBits r isrRst 7).trans (Bool.or_true _)

/-- The acknowledge clears the written bits 6:0, but `CNT`, which the pass assigns (R142). -/
theorem acknowledgeIsr_bit (s : State) (d : Byte) {k : Nat} (hk : k < 8) (h5 : k ≠ 5) :
    (acknowledgeIsr s d).isr.getLsbD k = (s.isr.getLsbD k && !(d &&& 0x7F).getLsbD k) := by
  rw [acknowledgeIsr, updateIrq_isr, isrWithCnt_other _ k h5, State.withIsr_isr, getLsbD_clearBits _ _ hk]

/-- Phase 1 of a `CR` write reaches no bit of `ISR` but `RST` (R233). -/
theorem rstAfterStartStop_low (isr cr : Byte) (stp sta : Bool) :
    rstAfterStartStop isr cr stp sta &&& 0x7F = isr &&& 0x7F := by
  have hset : ∀ i : Byte, setBits i isrRst &&& 0x7F = i &&& 0x7F := by decide
  have hclear : ∀ i : Byte, clearBits i isrRst &&& 0x7F = i &&& 0x7F := by decide
  unfold rstAfterStartStop
  split_ifs
  · exact hset isr
  · exact hclear isr
  · rfl

/-- A core that a `CR` write stops, or leaves stopped, shows `RST` (R233, R413). -/
theorem rstAfterStartStop_of_stop {isr cr : Byte} (h : crStp cr = true → isr.getLsbD 7 = true) (sta : Bool) :
    (rstAfterStartStop isr cr true sta).getLsbD 7 = true := by
  cases hstp : crStp cr with
  | false => simpa [rstAfterStartStop, hstp] using setBits_isrRst isr
  | true => simpa [rstAfterStartStop, hstp] using h hstp

/-- `RST` has no enable bit, so that it has no part in the level of the line (R385). -/
theorem irqLevelFor_congr_low {s : State} (himr : s.imr &&& 0x80 = 0) {isr isr' : Byte}
    (h : isr' &&& 0x7F = isr &&& 0x7F) : irqLevelFor s isr' = irqLevelFor s isr := by
  have hmask : ∀ m : Byte, m &&& 0x80 = 0 → 0x7F &&& m = m := by decide
  have hreq : coreRequest isr' s.imr = coreRequest isr s.imr := by
    rw [coreRequest, coreRequest, ← hmask s.imr himr, ← BitVec.and_assoc, ← BitVec.and_assoc, h]
  simp only [irqLevelFor, hreq]

/-- An address of the shared-memory window leads to a byte of local RAM. -/
theorem sharedOffset_lt {s : State} {addr o : Nat} (h : sharedOffset s addr = some o) : o < Config.memSize := by
  simp only [sharedOffset, Option.ite_none_right_eq_some, Option.some.injEq] at h
  obtain ⟨-, rfl⟩ := h
  exact Nat.mod_lt _ (by decide)

end Sys2Proof.Machine
end

section
/-! Proofs of the family 40_registers_page0, the layer of facts: what legality reads, and what an operation has to give the
aggregation pass for the state after it to be legal. -/

namespace Sys2Proof.Safety

open Sys2Proof.Machine

/-- The fields of the state that legality reads. -/
def legalFields (s : State) :=
  (s.cr, s.isr, s.imr, s.dcr, s.rcr, s.tcr, s.rsr, s.tsr, s.cntr0, s.cntr1, s.cntr2, s.irqLevel, s.gaNim, s.gaTcm,
    s.gaDtc, s.ram, s.cfg)

/-- Legality is a matter of these fields alone. -/
theorem Legal.congr {s t : State} (h : Legal s) (e : legalFields t = legalFields s) : Legal t := by
  simp only [legalFields, Prod.mk.injEq] at e
  obtain ⟨hcr, hisr, himr, hdcr, hrcr, htcr, hrsr, htsr, h0, h1, h2, hirq, hnim, htcm, hdtc, hram, hcfg⟩ := e
  obtain ⟨hreserved, htx, hcounters, hstatus, hhalt, hline, hwf⟩ := h
  constructor
  · simpa only [ReservedZero, himr, hdcr, hrcr, htcr] using hreserved
  · simpa only [TransmitterIdle, hcr] using htx
  · simpa only [CountersLegal, h0, h1, h2, hisr] using hcounters
  · simpa only [StatusLegal, hrsr, htsr] using hstatus
  · simpa only [HaltReported, hcr, hisr] using hhalt
  · simpa only [LineCoherent, irqLevelFor, hirq, hisr, himr, hnim, htcm, hdtc, hcfg] using hline
  · simpa only [RamCanonical, hram] using hwf

/-- What an operation has to give the aggregation pass at its end: everything of a legal state but `ISR.CNT` and the line,
which the pass assigns (R385, R386). -/
structure PassReady (s : State) : Prop where
  reserved : ReservedZero s
  idleTransmitter : TransmitterIdle s
  counters : s.cntr0 = 0 ∧ s.cntr1 = 0 ∧ s.cntr2 ≤ 192
  status : StatusLegal s
  halt : HaltReported s
  ram : RamCanonical s

section
variable {s : State}

theorem Legal.passReady (h : Legal s) : PassReady s :=
  have ⟨h0, h1, h2, _⟩ := h.counters
  ⟨h.reserved, h.idleTransmitter, ⟨h0, h1, h2⟩, h.status, h.halt, h.ram⟩

/-- The aggregation pass makes the state legal. -/
theorem PassReady.legal_updateIrq (h : PassReady s) : Legal (updateIrq s) where
  reserved := h.reserved
  idleTransmitter := h.idleTransmitter
  counters := by
    obtain ⟨h0, h1, h2⟩ := h.counters
    have hcnt : cntBit s = false := by simp [cntBit, h0]
    exact ⟨h0, h1, h2, (isrWithCnt_cnt s).trans hcnt⟩
  status := h.status
  halt hstp := (isrWithCnt_other s 7 (by decide)).trans (h.halt hstp)
  line := rfl
  ram := h.ram

/-- Raised causes are no obstacle to the pass: a shown `RST` stays. -/
theorem PassReady.setIsr (h : PassReady s) (causes : Byte) : PassReady { s with isr := setBits s.isr causes } :=
  { h with halt := fun hstp => setBits_keeps (h.halt hstp) causes }

/-- A write of `CR` that moves neither `STP` nor `TXP`. -/
theorem Legal.setCr (h : Legal s) {c : Byte} (htxp : crTxp c = crTxp s.cr) (hstp : crStp c = crStp s.cr) :
    Legal { s with cr := c } :=
  { h with
    idleTransmitter := htxp.trans h.idleTransmitter
    halt := fun hc => h.halt (hstp.symm.trans hc) }

theorem Legal.setRam (h : Legal s) {m : Memory} (hm : Memory.wf m = true) : Legal { s with ram := m } :=
  { h with ram := hm }

end

end Sys2Proof.Safety
end

section
/-! Proofs of the family 40_registers_page0, the layer of facts: every shared operation, event and instruction keeps a legal
state legal. -/

namespace Sys2Proof.Machine

open Sys2Proof.Safety

section
variable {s : State}

/-! ### Local RAM and the resets -/

theorem localWrite_legal (h : Legal s) (a : Word) (b : Byte) : Legal (localWrite s a b) := by
  have hm := localWrite_wf h.ram a b
  rw [localWrite_eq] at hm ⊢
  exact h.setRam hm

theorem localWrite16_legal (h : Legal s) (a v : Word) : Legal (localWrite16 s a v) :=
  localWrite_legal (localWrite_legal h a (loByte v)) (a + 1) (hiByte v)

/-- A soft reset leaves a stopped core that shows `RST`, with every cause masked (R411). -/
theorem softReset_legal (h : Legal s) : Legal (softReset s) := by
  obtain ⟨-, hdcr, hrcr, htcr⟩ := h.reserved
  have hlas : ∀ b : Byte, b &&& 0x80 = 0 → clearLas b &&& 0x80 = 0 := by decide
  have hlb : ∀ b : Byte, b &&& 0xE0 = 0 → clearLb b &&& 0xE0 = 0 := by decide
  have himr : (0 : Byte) &&& 0x80 = 0 := by decide
  have htxp : crTxp crReset = false := by decide
  exact PassReady.legal_updateIrq { h.passReady with
    reserved := ⟨himr, hlas s.dcr hdcr, hrcr, hlb s.tcr htcr⟩
    idleTransmitter := htxp
    halt := fun _ => setBits_isrRst s.isr }

/-- A hard reset gives the reset values, whatever the state was (R53). -/
theorem hardReset_legal (s : State) : Legal (hardReset s) := by
  have hr : Legal State.reset := Proofs.resetStateIsLegal
  rw [hardReset_eq]
  exact PassReady.legal_updateIrq { hr.passReady with }

/-! ### The phases of a `CR` write -/

/-- Phase 1 changes `STP`, `STA` and `RST` only. -/
theorem startStop_legal (h : Legal s) (stp sta : Bool) : Legal (startStop s stp sta) := by
  obtain ⟨h0, h1, h2, hcnt⟩ := h.counters
  have hlow := rstAfterStartStop_low s.isr s.cr stp sta
  have hbit : ∀ i : Byte, (i &&& 0x7F).getLsbD 5 = i.getLsbD 5 := by decide
  have hkept : (rstAfterStartStop s.isr s.cr stp sta).getLsbD 5 = s.isr.getLsbD 5 := by rw [← hbit, hlow, hbit]
  exact { h with
    idleTransmitter := (crTxp_setStartStop s.cr stp sta).trans h.idleTransmitter
    counters := ⟨h0, h1, h2, hkept.trans hcnt⟩
    halt := fun hstp => by
      obtain rfl : stp = true := (crStp_setStartStop s.cr stp sta).symm.trans hstp
      exact rstAfterStartStop_of_stop h.halt sta
    line := h.line.trans (irqLevelFor_congr_low h.reserved.1 hlow).symm }

/-- The values that the transmit engine gives `RSR`, if any, and `TSR` are legal (R322, R326 to R329, R336, R339). -/
theorem transmitStatus_legal (hs : StatusLegal s) {tsr rsr cause : Byte}
    (htsr : (tsr ∈ ([0x01, 0x41, 0x51] : List Byte) ∧ cause = isrPtx) ∨
      (tsr ∈ ([0x04, 0x80] : List Byte) ∧ cause = isrTxe))
    (hrsr : rsr = s.rsr ∨ rsr ∈ ([0x00, 0x01, 0x02, 0x21] : List Byte)) :
    StatusLegal { s with tsr := tsr, rsr := rsr } := by
  obtain ⟨hold, -⟩ := hs
  constructor
  · rcases hrsr with rfl | hr
    · exact hold
    · exact (by decide : ([0x00, 0x01, 0x02, 0x21] : List Byte) ⊆ [0x00, 0x01, 0x02, 0x10, 0x21, 0x30]) hr
  · rcases htsr with ⟨ht, -⟩ | ⟨ht, -⟩
    · exact (by decide : ([0x01, 0x41, 0x51] : List Byte) ⊆ [0x00, 0x01, 0x04, 0x41, 0x51, 0x80]) ht
    · exact (by decide : ([0x04, 0x80] : List Byte) ⊆ [0x00, 0x01, 0x04, 0x41, 0x51, 0x80]) ht

/-- A triggered transmission is over at the end of phase 2: the engine clears `TXP` and runs the pass (R242, R320). -/
theorem transmitTrigger_legal (h : Legal s) (txp : Bool) : Legal (transmitTrigger s txp) := by
  rcases transmitTrigger_cases s txp with ⟨he, -⟩ | ⟨he, -⟩
  · rw [he]
    exact h
  · obtain ⟨tsr, rsr, cause, fifo, wp, loopOut, netTx, answers, count, hrun, htsr, hrsr⟩ :=
      txEngine_cases (s.withCr (setTxp s.cr true))
    have hstp : crStp (setTxp (setTxp s.cr true) false) = crStp s.cr := by simp
    rw [he, hrun]
    exact PassReady.legal_updateIrq { h.passReady with
      idleTransmitter := crTxp_setTxp _ false
      status := transmitStatus_legal h.status htsr hrsr
      halt := fun hc => setBits_keeps (h.halt (hstp.symm.trans hc)) cause }

theorem remoteCommand_legal (h : Legal s) (rd : BitVec 3) : Legal (remoteCommand s rd) := by
  rw [remoteCommand_eq]
  exact (h.setCr (crTxp_setRd _ _) (crStp_setRd _ _)).congr rfl

theorem selectPage_legal (h : Legal s) (ps : BitVec 2) : Legal (selectPage s ps) :=
  h.setCr (crTxp_setPs _ _) (crStp_setPs _ _)

/-! ### Remote DMA -/

theorem dmaStep_legal (h : Legal s) : Legal (dmaStep s) := by
  rcases dmaStep_cases s with ⟨-, he⟩ | ⟨-, he⟩
  · exact he ▸ h.congr rfl
  · have hrd : Legal { s with crda := crdaNext s, rbcr := 0, cr := setRd s.cr 0 } :=
      (h.setCr (crTxp_setRd _ _) (crStp_setRd _ _)).congr rfl
    exact he ▸ (hrd.passReady.setIsr isrRdc).legal_updateIrq

/-! ### The receive engine -/

/-- The missed-packet counter stops at 192 (R296). -/
theorem countMissed_passReady (h : PassReady s) : PassReady (countMissed s) := by
  obtain ⟨h0, h1, -⟩ := h.counters
  unfold countMissed
  split
  case isTrue hlt =>
    have hle : s.cntr2 + 1 ≤ 192 := by
      have hcap : Config.tallyCap = 192 := rfl
      bv_omega
    exact { h with counters := ⟨h0, h1, hle⟩ }
  case isFalse => exact h

theorem storeFrame_passReady (h : PassReady s) (g : List Byte) : PassReady (storeFrame s g).1 := by
  obtain ⟨m, c, hm, ⟨he, -⟩ | ⟨he, -⟩⟩ := storeFrame_cases s g <;> rw [he]
  · exact { h with ram := hm h.ram }
  · exact { h.setIsr (isrOvw ||| isrRst) with ram := hm h.ram }

/-- The statuses with which a receive comes to its end: `PHY` or not, `MPA` or not. -/
theorem receiveStatus_mem (m : AddrMatch) (missed : Bool) :
    (if missed then setBits (phyStatus m) rsrMpa else phyStatus m) ∈ ([0x00, 0x10, 0x20, 0x30] : List Byte) := by
  cases m <;> cases missed <;> decide

/-- The end of a receive: an intact status gets `PRX` and one that is not stays, both legal (R302, R305). -/
theorem finishReceive_legal (h : PassReady s) {rsr : Byte} (hr : rsr ∈ ([0x00, 0x10, 0x20, 0x30] : List Byte))
    (start : Byte) (len : Nat) : Legal (finishReceive s start rsr len) := by
  cases hi : rsrIntact rsr with
  | true =>
    have hprx : ∀ r ∈ ([0x00, 0x10, 0x20, 0x30] : List Byte), rsrIntact r = true →
        setBits r rsrPrx ∈ ([0x00, 0x01, 0x02, 0x10, 0x21, 0x30] : List Byte) := by decide
    rw [finishReceive_intact s start rsr len hi]
    exact PassReady.legal_updateIrq { h.setIsr isrPrx with
      status := ⟨hprx rsr hr hi, h.status.2⟩
      ram := localWriteList_wf h.ram _ _ }
  | false =>
    have hkept : ∀ r ∈ ([0x00, 0x10, 0x20, 0x30] : List Byte), rsrIntact r = false →
        r ∈ ([0x00, 0x01, 0x02, 0x10, 0x21, 0x30] : List Byte) := by decide
    rw [finishReceive_error s start rsr len hi]
    exact PassReady.legal_updateIrq { h.setIsr isrRxe with status := ⟨hkept rsr hr hi, h.status.2⟩ }

theorem netRx_legal (h : Legal s) (frame : List Byte) : Legal (netRx s frame) := by
  unfold netRx
  split
  case isFalse => exact h
  case isTrue =>
    simp only []
    split_ifs with hnone hmon
    · exact h
    · exact finishReceive_legal (countMissed_passReady h.passReady) (receiveStatus_mem _ true) _ _
    · exact finishReceive_legal (storeFrame_passReady h.passReady _) (receiveStatus_mem _ true) _ _
    · exact finishReceive_legal (storeFrame_passReady h.passReady _) (receiveStatus_mem _ false) _ _

/-! ### Events and the adapter -/

theorem applyEvent_legal (h : Legal s) (e : Event) : Legal (applyEvent e s) := by
  cases e with
  | netRx frame => exact netRx_legal h frame
  | hardReset => exact hardReset_legal s
  | linkUp b => exact h.congr rfl
  | run b => exact h.congr rfl
  | netAnswer r => exact h.congr rfl
  | gateArray nim tcm dtc =>
    rw [applyEvent_gateArray]
    split
    · exact PassReady.legal_updateIrq { h.passReady with }
    · exact h
  | promMap ealo eahi =>
    rw [applyEvent_promMap]
    split
    · exact h.congr rfl
    · exact h
  | memEnable b =>
    rw [applyEvent_memEnable]
    split
    · exact h.congr rfl
    · exact h
  | shmemRead addr =>
    cases ho : sharedOffset s addr with
    | none => rw [(applyEvent_shmem_of_none ho 0).1]; exact h
    | some o => rw [(applyEvent_shmem_of_some ho 0).1]; exact h.congr rfl
  | shmemWrite addr b =>
    cases ho : sharedOffset s addr with
    | none => rw [(applyEvent_shmem_of_none ho b).2]; exact h
    | some o =>
      rw [(applyEvent_shmem_of_some ho b).2]
      exact h.setRam (Memory.write_wf h.ram (sharedOffset_lt ho))

theorem promRead_legal (h : Legal s) (wide : Bool) (a : Nibble) : Legal (promRead s wide a) := by
  obtain ⟨n, r, he⟩ := promRead_eq s wide a
  exact he ▸ h.congr rfl

theorem splitAccess_legal (h : Legal s) (w : Bool) (port : Nat) (v : Word) : Legal (splitAccess s w port v) :=
  h.congr rfl

/-! ### Register accesses of page 0 that reach what legality reads -/

/-- Counters in their range are no obstacle to the pass: a read of one clears it (R133 to R135). -/
theorem setCounters_legal (h : Legal s) {c0 c1 c2 : Byte} (h0 : c0 = 0) (h1 : c1 = 0) (h2 : c2 ≤ 192) :
    Legal (updateIrq { s with cntr0 := c0, cntr1 := c1, cntr2 := c2 }) :=
  PassReady.legal_updateIrq { h.passReady with counters := ⟨h0, h1, h2⟩ }

/-- A write under a mask leaves the bits that do not exist at 0 (R147 to R150). -/
theorem masked_reserved (d : Byte) :
    (d &&& imrMask) &&& 0x80 = 0 ∧ (d &&& dcrMask) &&& 0x80 = 0 ∧ (d &&& rcrMask) &&& 0xC0 = 0 ∧
    (d &&& tcrMask) &&& 0xE0 = 0 := by
  simp only [BitVec.and_assoc, imrMask, dcrMask, rcrMask, tcrMask]
  simp

/-- The acknowledge cannot clear `RST` (R142). -/
theorem acknowledgeIsr_legal (h : Legal s) (d : Byte) : Legal (acknowledgeIsr s d) := by
  have hrst : (clearBits s.isr (d &&& 0x7F)).getLsbD 7 = s.isr.getLsbD 7 := by
    rw [getLsbD_clearBits _ _ (by decide)]
    simp
  exact PassReady.legal_updateIrq { h.passReady with halt := fun hstp => hrst.trans (h.halt hstp) }

end

/-! ### Instructions -/

/-- The outcome, where it is a next state, is legal. -/
def AnswersLegal (o : Host.Outcome State Fault Refusal) : Prop := ∀ t, o = .next t → Legal t

@[simp] theorem answersLegal_next {u : State} : AnswersLegal (.next u) ↔ Legal u := by simp [AnswersLegal]

@[simp] theorem answersLegal_refused {r : Refusal} : AnswersLegal (.refused r) := by simp [AnswersLegal]

section
variable {s : State}

theorem execWrCr_answersLegal (h : Legal s) (d : Byte) : AnswersLegal (execWrCr d s) :=
  answersLegal_next.2 (selectPage_legal (remoteCommand_legal (transmitTrigger_legal (startStop_legal h _ _) _) _) _)

theorem execDataRd8_answersLegal (h : Legal s) : AnswersLegal (execDataRd8 s) := by
  rcases execDataRd8_cases s with ⟨-, -, he⟩ | ⟨-, -, he⟩ | ⟨-, he⟩ <;> rw [he]
  · exact answersLegal_next.2 ((dmaStep_legal h).congr rfl)
  · exact answersLegal_refused
  · exact answersLegal_next.2 (h.congr rfl)

theorem execDataRd16_answersLegal (h : Legal s) : AnswersLegal (execDataRd16 s) := by
  rcases execDataRd16_cases s with ⟨-, -, he⟩ | ⟨-, -, he⟩ | ⟨-, he⟩ <;> rw [he]
  · exact answersLegal_next.2 ((dmaStep_legal h).congr rfl)
  · exact answersLegal_refused
  · exact answersLegal_next.2 (h.congr rfl)

theorem execDataWr8_answersLegal (h : Legal s) (v : Byte) : AnswersLegal (execDataWr8 v s) := by
  rcases execDataWr8_cases s v with ⟨-, -, he⟩ | ⟨-, -, he⟩ | ⟨-, he⟩ <;> rw [he]
  · exact answersLegal_next.2 (dmaStep_legal (localWrite_legal h _ v))
  · exact answersLegal_refused
  · exact answersLegal_next.2 h

theorem execDataWr16_answersLegal (h : Legal s) (v : Word) : AnswersLegal (execDataWr16 v s) := by
  rcases execDataWr16_cases s v with ⟨-, -, he⟩ | ⟨-, -, he⟩ | ⟨-, he⟩ <;> rw [he]
  · exact answersLegal_next.2 (dmaStep_legal (localWrite16_legal h _ v))
  · exact answersLegal_refused
  · exact answersLegal_next.2 h

/-- Every instruction keeps a legal state legal. A case that is not named gives a reply or writes a register that legality
does not read. -/
theorem exec_answersLegal (h : Legal s) (i : Instr) : AnswersLegal (exec i s) := by
  obtain ⟨himr, hdcr, hrcr, htcr⟩ := h.reserved
  obtain ⟨h0, h1, h2, -⟩ := h.counters
  cases i
  case wrCr d => exact execWrCr_answersLegal h d
  case crStp b => exact answersLegal_next.2 (startStop_legal h b _)
  case crSta b => exact answersLegal_next.2 (startStop_legal h _ b)
  case crTxp => exact answersLegal_next.2 (transmitTrigger_legal h true)
  case crRdInvalid => exact answersLegal_next.2 (remoteCommand_legal h 0)
  case crRdRead => exact answersLegal_next.2 (remoteCommand_legal h 1)
  case crRdWrite => exact answersLegal_next.2 (remoteCommand_legal h 2)
  case crRdSend => exact answersLegal_next.2 (remoteCommand_legal h 3)
  case crRdAbort rd => exact answersLegal_next.2 (remoteCommand_legal h rd)
  case crPs ps => exact answersLegal_next.2 (selectPage_legal h ps)
  case p0rCntr0 => exact answersLegal_next.2 ((setCounters_legal h rfl h1 h2).congr rfl)
  case p0rCntr1 => exact answersLegal_next.2 ((setCounters_legal h h0 rfl h2).congr rfl)
  case p0rCntr2 => exact answersLegal_next.2 ((setCounters_legal h h0 h1 (by decide)).congr rfl)
  case p0wIsr d => exact answersLegal_next.2 (acknowledgeIsr_legal h d)
  case p0wRcr d =>
    obtain ⟨-, -, hmasked, -⟩ := masked_reserved d
    exact answersLegal_next.2 { h with reserved := ⟨himr, hdcr, hmasked, htcr⟩ }
  case p0wTcr d =>
    obtain ⟨-, -, -, hmasked⟩ := masked_reserved d
    exact answersLegal_next.2 { h with reserved := ⟨himr, hdcr, hrcr, hmasked⟩ }
  case p0wDcr d =>
    obtain ⟨-, hmasked, -, -⟩ := masked_reserved d
    exact answersLegal_next.2 { h with reserved := ⟨himr, hmasked, hrcr, htcr⟩ }
  case p0wImr d =>
    obtain ⟨hmasked, -, -, -⟩ := masked_reserved d
    exact answersLegal_next.2
      (PassReady.legal_updateIrq { h.passReady with reserved := ⟨hmasked, hdcr, hrcr, htcr⟩ })
  case dataRd8 => exact execDataRd8_answersLegal h
  case dataRd16 => exact execDataRd16_answersLegal h
  case dataWr8 v => exact execDataWr8_answersLegal h v
  case dataWr16 v => exact execDataWr16_answersLegal h v
  case resetRd => exact answersLegal_next.2 ((softReset_legal h).congr rfl)
  case resetWr v => exact answersLegal_next.2 (softReset_legal h)
  all_goals exact answersLegal_next.2 (h.congr rfl)

end

end Sys2Proof.Machine
end

section
/-! Proofs of the family 40_registers_page0: the statements. -/

namespace Sys2Proof.Proofs

open Sys2Proof.Machine

/-- Settles O43: each thing that a step can be keeps a legal state legal. -/
theorem everyStepKeepsLegality : Obligations.EveryStepKeepsLegality := by
  intro s t hs h
  have hadv : Safety.Legal s.advance := hs.congr rfl
  rcases step_cases h with ⟨-, rfl⟩ | ⟨i, -, hx⟩ | ⟨e, -, rfl⟩ | ⟨wide, a, -, rfl⟩ | ⟨-, rfl⟩ | ⟨w, port, v, -, rfl⟩
  · exact hs
  · exact exec_answersLegal hadv i t hx
  · exact applyEvent_legal hadv e
  · exact promRead_legal hadv wide a
  · exact hadv
  · exact splitAccess_legal hadv w port v

/-- Settles O1: each word stands at its place in the tables of page 0, and a plain read is its register as the reply. -/
theorem plainReadsReturnCommandAndPageZeroRegisters : Obligations.PlainReadsReturnCommandAndPageZeroRegisters :=
  fun _ _ => ⟨⟨rfl, rfl, rfl, rfl, rfl⟩, ⟨rfl, rfl⟩, ⟨rfl, rfl⟩, ⟨rfl, rfl⟩, ⟨rfl, rfl⟩, ⟨rfl, rfl⟩, ⟨rfl, rfl⟩, ⟨rfl, rfl⟩,
    ⟨rfl, rfl⟩, ⟨rfl, rfl⟩, ⟨rfl, rfl⟩, ⟨rfl, rfl⟩⟩

/-- Settles O2: `FIFO_RP` is a 4-bit index, so that its successor is modulo 16; each counter is cleared before the pass. -/
theorem sideEffectingReadsOfFifoAndTallyCounters : Obligations.SideEffectingReadsOfFifoAndTallyCounters :=
  fun _ _ => ⟨⟨rfl, rfl⟩, ⟨rfl, rfl⟩, ⟨rfl, rfl⟩, ⟨rfl, rfl⟩⟩

/-- Settles O3: one register or half for each write, and the same half of `CRDA` for the two halves of `RSAR`. -/
theorem plainWritesOfPageZeroAndRsarAliasing : Obligations.PlainWritesOfPageZeroAndRsarAliasing :=
  fun _ _ => ⟨⟨rfl, rfl⟩, ⟨rfl, rfl⟩, ⟨rfl, rfl⟩, ⟨rfl, rfl⟩, ⟨rfl, rfl⟩, ⟨rfl, rfl⟩, ⟨rfl, rfl⟩, ⟨rfl, rfl⟩, ⟨rfl, rfl⟩,
    ⟨rfl, rfl⟩⟩

/-- Settles O4: the masks are those of the bits that exist. -/
theorem maskedConfigurationWrites : Obligations.MaskedConfigurationWrites :=
  fun _ _ => ⟨⟨rfl, rfl⟩, ⟨rfl, rfl⟩, ⟨rfl, rfl⟩, ⟨rfl, rfl⟩⟩

/-- Settles O5: `CNT` is what the pass assigns; every other bit is what the acknowledge left. -/
theorem interruptAcknowledgeClearsWrittenBits : Obligations.InterruptAcknowledgeClearsWrittenBits := by
  intro s d
  refine ⟨rfl, rfl, fun t ht => ?_⟩
  obtain rfl : acknowledgeIsr s d = t := Host.Outcome.next.inj ht
  refine ⟨?rst, isrWithCnt_cnt _, fun k hk h5 => ?bit⟩
  case rst => exact (acknowledgeIsr_bit s d (by decide) (by decide)).trans (by simp)
  case bit =>
    have hlow : (0x7F : Byte).getLsbD k = true := by interval_cases k <;> rfl
    rw [acknowledgeIsr_bit s d (by omega) h5, BitVec.getLsbD_and, hlow, Bool.and_true]

end Sys2Proof.Proofs
end

section
/-! Proofs of the family 41_registers_page1_2_3, the layer of facts: the accesses of page 3 and the writes that are
discarded (spec/41_registers_page1_2_3.md R208, R212 to R221). -/

namespace Sys2Proof.Machine

/-! ### The tables of the decoder -/

section
variable {w : BitVec 7}

/-- A read of page 3 at another offset than that of `CR` is looked up in the table of its page (R103). -/
theorem decodeReg_page3Read (hw : w.getLsbD 6 = false) (hps : w.extractLsb' 4 2 = 3) (ha : w.extractLsb' 0 4 ≠ 0)
    (d : Byte) : decodeReg w d = decodePage3Read (w.extractLsb' 0 4) := by
  simp only [decodeReg, hw, hps, if_neg ha, Bool.false_eq_true, if_false]
  rfl

/-- A write of page 2, likewise. -/
theorem decodeReg_page2Write (hw : w.getLsbD 6 = true) (hps : w.extractLsb' 4 2 = 2) (ha : w.extractLsb' 0 4 ≠ 0)
    (d : Byte) : decodeReg w d = decodePage2Write (w.extractLsb' 0 4) d := by
  simp only [decodeReg, hw, hps, if_neg ha, if_true]
  rfl

/-- A write of page 3, likewise. -/
theorem decodeReg_page3Write (hw : w.getLsbD 6 = true) (hps : w.extractLsb' 4 2 = 3) (ha : w.extractLsb' 0 4 ≠ 0)
    (d : Byte) : decodeReg w d = decodePage3Write (w.extractLsb' 0 4) d := by
  simp only [decodeReg, hw, hps, if_neg ha, if_true]
  rfl

end

/-! ### What the entries of the tables do -/

/-- Every entry of the read table of page 3 replies 0x00 (R220). -/
theorem exec_decodePage3Read (a : Nibble) (s : State) : exec (decodePage3Read a) s = replyByte s 0x00 := by
  unfold decodePage3Read
  split <;> rfl

/-- Every entry of the write table of page 3 is ignored (R221). -/
theorem exec_decodePage3Write (a : Nibble) (d : Byte) (s : State) : exec (decodePage3Write a d) s = .next s := by
  unfold decodePage3Write
  split <;> rfl

/-- The entries of the write table of page 2 at the reserved offsets are ignored (R208, R212 to R219). -/
theorem exec_decodePage2Write_reserved {a : Nibble} (ha : a = 4 ∨ 8 ≤ a.toNat) (d : Byte) (s : State) :
    exec (decodePage2Write a d) s = .next s := by
  rcases ha with rfl | hge
  · rfl
  · have hlt : a.toNat < 16 := a.isLt
    unfold decodePage2Write
    interval_cases a.toNat <;> rfl

/-! ### Access words -/

/-- A read of page 3 at another offset than that of `CR`. -/
def isPage3Read (w : BitVec 7) : Bool :=
  !w.getLsbD 6 && w.extractLsb' 4 2 == 3 && w.extractLsb' 0 4 != 0

/-- A write that is discarded: of page 2 at offset 4 or from 8 on, of page 3 at another offset than that of `CR`. -/
def isDiscardedWrite (w : BitVec 7) : Bool :=
  let a : Nibble := w.extractLsb' 0 4
  w.getLsbD 6 && (w.extractLsb' 4 2 == 2 && (a == 4 || decide (8 ≤ a.toNat)) || w.extractLsb' 4 2 == 3 && a != 0)

theorem exec_decodeReg_of_isPage3Read {w : BitVec 7} (h : isPage3Read w = true) (d : Byte) (s : State) :
    exec (decodeReg w d) s = replyByte s 0x00 := by
  simp only [isPage3Read, Bool.and_eq_true, Bool.not_eq_true', beq_iff_eq, bne_iff_ne, ne_eq] at h
  obtain ⟨⟨hw, hps⟩, ha⟩ := h
  rw [decodeReg_page3Read hw hps ha, exec_decodePage3Read]

theorem exec_decodeReg_of_isDiscardedWrite {w : BitVec 7} (h : isDiscardedWrite w = true) (d : Byte) (s : State) :
    exec (decodeReg w d) s = .next s := by
  simp only [isDiscardedWrite, Bool.and_eq_true, Bool.or_eq_true, beq_iff_eq, bne_iff_ne, ne_eq, decide_eq_true_eq] at h
  obtain ⟨hw, ⟨hps, hreserved⟩ | ⟨hps, ha⟩⟩ := h
  · have ha : w.extractLsb' 0 4 ≠ 0 := fun h0 => absurd hreserved (by rw [h0]; decide)
    rw [decodeReg_page2Write hw hps ha, exec_decodePage2Write_reserved hreserved]
  · rw [decodeReg_page3Write hw hps ha, exec_decodePage3Write]

end Sys2Proof.Machine
end

section
/-! Proofs of the family 41_registers_page1_2_3: the statements. In a table of plain accesses each row holds by evaluating
the decoder on its word and the dispatch on its instruction. -/

namespace Sys2Proof.Proofs

open Sys2Proof.Machine

/-- Settles O6: offset `k + 1` of page 1 is `PAR[k]`, and `CURR` follows. -/
theorem stationAddressAndCurrentPageReads : Obligations.StationAddressAndCurrentPageReads :=
  fun _ _ => ⟨⟨rfl, rfl⟩, ⟨rfl, rfl⟩, ⟨rfl, rfl⟩, ⟨rfl, rfl⟩, ⟨rfl, rfl⟩, ⟨rfl, rfl⟩, ⟨rfl, rfl⟩⟩

/-- Settles O7: offset `k + 8` of page 1 is `MAR[k]`. -/
theorem multicastFilterReads : Obligations.MulticastFilterReads :=
  fun _ _ => ⟨⟨rfl, rfl⟩, ⟨rfl, rfl⟩, ⟨rfl, rfl⟩, ⟨rfl, rfl⟩, ⟨rfl, rfl⟩, ⟨rfl, rfl⟩, ⟨rfl, rfl⟩, ⟨rfl, rfl⟩⟩

/-- Settles O8: one element of `PAR` for each write, or `CURR` alone. -/
theorem stationAddressAndCurrentPageWrites : Obligations.StationAddressAndCurrentPageWrites :=
  fun _ _ => ⟨⟨rfl, rfl⟩, ⟨rfl, rfl⟩, ⟨rfl, rfl⟩, ⟨rfl, rfl⟩, ⟨rfl, rfl⟩, ⟨rfl, rfl⟩, ⟨rfl, rfl⟩⟩

/-- Settles O9: one element of `MAR` for each write, under no mask. -/
theorem multicastFilterWrites : Obligations.MulticastFilterWrites :=
  fun _ _ => ⟨⟨rfl, rfl⟩, ⟨rfl, rfl⟩, ⟨rfl, rfl⟩, ⟨rfl, rfl⟩, ⟨rfl, rfl⟩, ⟨rfl, rfl⟩, ⟨rfl, rfl⟩, ⟨rfl, rfl⟩⟩

/-- Settles O10: each read-back is the stored register as the reply. -/
theorem pageTwoReadBacks : Obligations.PageTwoReadBacks :=
  fun _ _ => ⟨⟨rfl, rfl⟩, ⟨rfl, rfl⟩, ⟨rfl, rfl⟩, ⟨rfl, rfl⟩, ⟨rfl, rfl⟩, ⟨rfl, rfl⟩, ⟨rfl, rfl⟩, ⟨rfl, rfl⟩, ⟨rfl, rfl⟩,
    ⟨rfl, rfl⟩, ⟨rfl, rfl⟩⟩

/-- Settles O11: four reserved offsets of page 2 row by row; the words of page 3 are reads of page 3, which reply 0x00. -/
theorem reservedAndPageThreeReads : Obligations.ReservedAndPageThreeReads := by
  intro s d
  refine ⟨⟨rfl, rfl⟩, ⟨rfl, rfl⟩, ⟨rfl, rfl⟩, ⟨rfl, rfl⟩, fun p hp => ?_⟩
  have hdecode : decodeReg p.1 d = p.2 := by fin_cases hp <;> rfl
  have hread : isPage3Read p.1 = true := by fin_cases hp <;> rfl
  exact ⟨hdecode, hdecode ▸ exec_decodeReg_of_isPage3Read hread d s⟩

/-- Settles O12: one half of `CLDA` for each of its two writes, one register for each other. -/
theorem pageTwoStoringWrites : Obligations.PageTwoStoringWrites :=
  fun _ _ => ⟨⟨rfl, rfl⟩, ⟨rfl, rfl⟩, ⟨rfl, rfl⟩, ⟨rfl, rfl⟩, ⟨rfl, rfl⟩, ⟨rfl, rfl⟩⟩

/-- Settles O13: every word of the table is one whose write is discarded. -/
theorem reservedAndPageThreeWritesDiscarded : Obligations.ReservedAndPageThreeWritesDiscarded := by
  intro s d p hp
  have hdecode : decodeReg p.1 d = p.2 := by fin_cases hp <;> dsimp only <;> rfl
  have hdiscarded : isDiscardedWrite p.1 = true := by fin_cases hp <;> dsimp only <;> rfl
  exact ⟨hdecode, hdecode ▸ exec_decodeReg_of_isDiscardedWrite hdiscarded d s⟩

end Sys2Proof.Proofs
end

section
/-! Proofs of the family 42_command_register, the layer of facts: the named updates of `CR` and the phases of its write in
the bit operations of the rules (spec/42_command_register.md R230 to R242). -/

namespace Sys2Proof.Machine

/-! ### The named updates of `CR` as masks -/

theorem setStartStop_mask : ∀ (c : Byte) (stp sta : Bool), setStartStop c stp sta =
    (c &&& 0xFC) ||| (if sta then 0x02 else 0x00) ||| (if stp then 0x01 else 0x00) := by decide +kernel

/-- `STP` stored, `STA` with its own value. -/
theorem setStp_mask : ∀ (c : Byte) (stp : Bool), setStartStop c stp (crSta c) =
    (c &&& 0xFE) ||| (if stp then 0x01 else 0x00) := by decide +kernel

/-- `STA` stored, `STP` with its own value. -/
theorem setSta_mask : ∀ (c : Byte) (sta : Bool), setStartStop c (crStp c) sta =
    (c &&& 0xFD) ||| (if sta then 0x02 else 0x00) := by decide +kernel

theorem setTxp_true_mask : ∀ c : Byte, setTxp c true = c ||| 0x04 := by decide +kernel

theorem setRd_mask : ∀ (c : Byte) (rd : BitVec 3), setRd c rd = (c &&& 0xC7) ||| (rd.setWidth 8 <<< 3) := by
  decide +kernel

theorem setPs_mask : ∀ (c : Byte) (ps : BitVec 2), setPs c ps = (c &&& 0x3F) ||| (ps.setWidth 8 <<< 6) := by
  decide +kernel

/-- A byte put together from the fields of a written one, with `TXP` 0 and the invalid remote-DMA command as Abort. -/
theorem crOf_written : ∀ d : Byte, crOf (crPs d) (if crRd d = 0 then 4 else crRd d) false (crSta d) (crStp d) =
    if d &&& 0x38 = 0 then (d &&& 0xC3) ||| 0x20 else d &&& 0xFB := by decide +kernel

/-! ### Phase 1: `ISR.RST` -/

section
variable (isr cr : Byte)

theorem rstAfterStartStop_mask (stp sta : Bool) : rstAfterStartStop isr cr stp sta =
    if stp = true ∧ crStp cr = false then isr ||| 0x80
    else if stp = false ∧ sta = true ∧ (crStp cr = true ∨ crSta cr = false) then isr &&& 0x7F else isr := by
  simp only [rstAfterStartStop, Bool.and_eq_true, Bool.or_eq_true, Bool.not_eq_true', and_assoc]
  rfl

/-- With `STA` as it is, the flag is cleared only where a started core leaves the stop. -/
theorem rstAfterStartStop_stp (stp : Bool) : rstAfterStartStop isr cr stp (crSta cr) =
    if stp = true ∧ crStp cr = false then isr ||| 0x80
    else if stp = false ∧ crSta cr = true ∧ crStp cr = true then isr &&& 0x7F else isr := by
  rw [rstAfterStartStop_mask]
  cases crSta cr <;> simp

/-- With `STP` as it is, the flag is never set, and cleared only by a start of a core that is not stopped. -/
theorem rstAfterStartStop_sta (sta : Bool) : rstAfterStartStop isr cr (crStp cr) sta =
    if crStp cr = false ∧ sta = true ∧ crSta cr = false then isr &&& 0x7F else isr := by
  rw [rstAfterStartStop_mask]
  cases crStp cr <;> simp

end

section
variable (s : State)

/-! ### Phase 2: the transmit trigger -/

@[simp] theorem transmitTrigger_false : transmitTrigger s false = s := rfl

theorem transmitTrigger_of_pending (h : crTxp s.cr = true) (txp : Bool) : transmitTrigger s txp = s := by
  rcases transmitTrigger_cases s txp with ⟨he, -⟩ | ⟨-, -, hidle⟩
  · exact he
  · exact absurd (h.symm.trans hidle) (by decide)

theorem transmitTrigger_of_edge (h : crTxp s.cr = false) :
    transmitTrigger s true = txEngine { s with cr := s.cr ||| 0x04 } := by
  rcases transmitTrigger_cases s true with ⟨-, hfalse | hpending⟩ | ⟨he, -⟩
  · cases hfalse
  · exact absurd (h.symm.trans hpending) (by decide)
  · rw [he, setTxp_true_mask, State.withCr]

/-- Of `CR` the transmit engine writes `TXP` only, with 0 (R320). -/
@[simp] theorem txEngine_cr : (txEngine s).cr = setTxp s.cr false := by
  obtain ⟨tsr, rsr, cause, fifo, wp, loopOut, netTx, answers, count, h, -, -⟩ := txEngine_cases s
  rw [h, updateIrq_cr]

/-- `TXP` set and cleared again: an idle transmitter finds `CR` as it was after its run (R242). -/
theorem transmitTrigger_cr_of_idle (h : crTxp s.cr = false) (txp : Bool) : (transmitTrigger s txp).cr = s.cr := by
  have hback : ∀ c : Byte, crTxp c = false → setTxp (setTxp c true) false = c := by decide +kernel
  rcases transmitTrigger_cases s txp with ⟨he, -⟩ | ⟨he, -⟩
  · rw [he]
  · rw [he, txEngine_cr, State.withCr_cr, hback s.cr h]

/-! ### Phase 3: the remote-DMA command -/

/-- A command equal to the stored one, 0 counting as Abort, has no effect (R236). -/
theorem remoteCommand_of_stored {rd : BitVec 3} (h : (if rd = 0 then 4 else rd) = crRd s.cr) :
    remoteCommand s rd = s := if_pos h

/-- A command other than Send Packet is stored, 0 as Abort, and nothing else (R235, R237 to R239). -/
theorem remoteCommand_of_ne_send {rd : BitVec 3} (h : rd ≠ 3) : remoteCommand s rd =
    { s with cr := (s.cr &&& 0xC7) ||| ((if rd = 0 then (4 : BitVec 3) else rd).setWidth 8 <<< 3) } := by
  simp only [remoteCommand_eq, setRd_mask, h, false_and, if_false]

/-- Send Packet as a change sets up the transfer from the header at `BNRY` (R240). -/
theorem remoteCommand_send_of_change (h : crRd s.cr ≠ 3) : remoteCommand s 3 = { s with
    crda := wordOf s.bnry 0
    rbcr := wordOf (localRead s (wordOf s.bnry 3)) (localRead s (wordOf s.bnry 2))
    cr := (s.cr &&& 0xC7) ||| 0x18 } := by
  have hchange : (3 : BitVec 3) = 3 ∧ crRd s.cr ≠ 3 := ⟨rfl, h⟩
  rw [remoteCommand_eq, setRd_mask, if_pos hchange, if_pos hchange]
  rfl

/-! ### The four phases -/

theorem exec_wrCr (d : Byte) : exec (.wrCr d) s =
    .next (selectPage (remoteCommand (transmitTrigger (startStop s (crStp d) (crSta d)) (crTxp d)) (crRd d)) (crPs d)) :=
  rfl

/-- The four phases leave the written fields in `CR`, the remote-DMA command 0 as Abort and `TXP` at 0 where the
transmitter was idle. -/
theorem fourPhases_cr (h : crTxp s.cr = false) (ps : BitVec 2) (rd : BitVec 3) (txp sta stp : Bool) :
    (selectPage (remoteCommand (transmitTrigger (startStop s stp sta) txp) rd) ps).cr =
      crOf ps (if rd = 0 then 4 else rd) false sta stp := by
  have hidle : crTxp (startStop s stp sta).cr = false := (crTxp_setStartStop s.cr stp sta).trans h
  have htrigger : (transmitTrigger (startStop s stp sta) txp).cr = setStartStop s.cr stp sta :=
    transmitTrigger_cr_of_idle _ hidle txp
  rw [selectPage, State.withCr_cr, remoteCommand_eq, htrigger]
  simp [setPs, h]

end

end Sys2Proof.Machine
end

section
/-! Proofs of the family 42_command_register: the statements. -/

namespace Sys2Proof.Proofs

open Sys2Proof.Machine

/-- Settles O20: the fields of the written byte, as the four phases leave them, put together. -/
theorem commandRegisterValueAfterWrite : Obligations.CommandRegisterValueAfterWrite := by
  intro s d hidle
  refine ⟨_, exec_wrCr s d, ?_⟩
  rw [fourPhases_cr s hidle, crOf_written]

/-- Settles O22: without phase 2 the write is phase 1, which reaches no bit of `ISR` but `RST`, then a remote-DMA command,
then the page. -/
theorem commandWriteWithoutTransmitFrame : Obligations.CommandWriteWithoutTransmitFrame := by
  intro s t d htxp h
  have hsend : ∀ c : Byte, c &&& 0x38 = 0x18 ↔ crRd c = 3 := fun c => by
    obtain ⟨-, -, -, hmask, -⟩ := rdMask_iff c
    exact hmask
  have hkept : d &&& 0x38 ≠ 0x18 ∨ s.cr &&& 0x38 = 0x18 →
      ¬ (crRd d = 3 ∧ crRd (startStop s (crStp d) (crSta d)).cr ≠ 3) := by
    rw [ne_eq, hsend, hsend, startStop, crRd_setStartStop]
    tauto
  rw [exec_wrCr, show crTxp d = false from htxp, transmitTrigger_false, remoteCommand_eq] at h
  obtain rfl := Host.Outcome.next.inj h
  exact ⟨rfl, rstAfterStartStop_low s.isr s.cr _ _, fun hor => ⟨if_neg (hkept hor), if_neg (hkept hor)⟩⟩

/-- Settles O14: phase 1 with one of its two bits written back as it was. -/
theorem stopAndStartCommandsAlone : Obligations.StopAndStartCommandsAlone := by
  intro s b
  have hstp : startStop s b (crSta s.cr) = { s with
      cr := (s.cr &&& 0xFE) ||| (if b then 0x01 else 0x00)
      isr := if b = true ∧ crStp s.cr = false then s.isr ||| 0x80
        else if b = false ∧ crSta s.cr = true ∧ crStp s.cr = true then s.isr &&& 0x7F else s.isr } := by
    rw [startStop, setStp_mask, rstAfterStartStop_stp]
  have hsta : startStop s (crStp s.cr) b = { s with
      cr := (s.cr &&& 0xFD) ||| (if b then 0x02 else 0x00)
      isr := if crStp s.cr = false ∧ b = true ∧ crSta s.cr = false then s.isr &&& 0x7F else s.isr } := by
    rw [startStop, setSta_mask, rstAfterStartStop_sta]
  exact ⟨congrArg Host.Outcome.next hstp, congrArg Host.Outcome.next hsta⟩

/-- Settles O15: the two written fields as masks. -/
theorem stopStartPhaseStoresBitsAndResetFlag : Obligations.StopStartPhaseStoresBitsAndResetFlag := by
  intro s stp sta
  rw [startStop, setStartStop_mask, rstAfterStartStop_mask]
  rfl

/-- Settles O16: no edge without a written 1, none with `TXP` already 1. -/
theorem transmitTriggerIsEdgeOfTxp : Obligations.TransmitTriggerIsEdgeOfTxp := fun s =>
  ⟨transmitTrigger_false s, fun hpending => congrArg Host.Outcome.next (transmitTrigger_of_pending s hpending true),
    fun hidle => congrArg Host.Outcome.next (transmitTrigger_of_edge s hidle)⟩

/-- Settles O17: none of these commands is Send Packet; an Abort has its top bit set, so that it is not 0 either. -/
theorem remoteCommandsAndPageSelectStoreTheirField : Obligations.RemoteCommandsAndPageSelectStoreTheirField := by
  intro s rd ps
  have habort : rd.getLsbD 2 = true → rd ≠ 3 ∧ rd ≠ 0 := by revert rd; decide
  refine ⟨congrArg Host.Outcome.next (remoteCommand_of_ne_send s (by decide)),
    congrArg Host.Outcome.next (remoteCommand_of_ne_send s (by decide)),
    congrArg Host.Outcome.next (remoteCommand_of_ne_send s (by decide)), fun h => ?_, ?_⟩
  · obtain ⟨hsend, hinvalid⟩ := habort h
    have hstored := remoteCommand_of_ne_send s hsend
    rw [if_neg hinvalid] at hstored
    exact congrArg Host.Outcome.next hstored
  · exact congrArg (fun c => Host.Outcome.next (s.withCr c)) (setPs_mask s.cr ps)

/-- Settles O18: the test for a change of the command comes before its effect. -/
theorem sendPacketLoadsHeaderCount : Obligations.SendPacketLoadsHeaderCount := by
  intro s
  refine ⟨fun rd hrd h => ?_, fun h => ?_, fun h => ?_, fun h => ?_⟩
  · exact remoteCommand_of_stored s ((if_neg hrd).trans h.symm)
  · exact remoteCommand_of_stored s h.symm
  · exact congrArg Host.Outcome.next (remoteCommand_of_stored s (rd := 3) h.symm)
  · exact congrArg Host.Outcome.next (remoteCommand_send_of_change s h)

/-- Settles O19: offset 0 is the entry of `CR` on each page, and the fields of the byte are its bits. -/
theorem commandWriteRunsFourPhasesInOrder : Obligations.CommandWriteRunsFourPhasesInOrder :=
  fun s d => ⟨⟨rfl, rfl, rfl, rfl⟩, exec_wrCr s d⟩

end Sys2Proof.Proofs
end

section
/-! Proofs of the family 43_remote_dma, the layer of facts: when a data-port access transfers, the address and the count
after one unit, and what is left of a transfer (spec/43_remote_dma.md R251 to R258, R265). -/

namespace Sys2Proof.Machine

section
variable {s : State}

/-! ### One access, by whether it transfers -/

theorem readEnabled_iff : readEnabled s = true ↔ crRd s.cr = 1 ∨ crRd s.cr = 3 := by simp [readEnabled]

theorem writeEnabled_iff : writeEnabled s = true ↔ crRd s.cr = 2 := by simp [writeEnabled]

theorem dmaUnit_eq_one_iff : dmaUnit s = 1 ↔ dcrWts s.dcr = false := by cases h : dcrWts s.dcr <;> simp [dmaUnit, h]

theorem dmaUnit_eq_two_iff : dmaUnit s = 2 ↔ dcrWts s.dcr = true := by cases h : dcrWts s.dcr <;> simp [dmaUnit, h]

theorem exec_dataRd8_of_enabled (hrd : readEnabled s = true) (hwts : dcrWts s.dcr = false) :
    exec .dataRd8 s = .next ((dmaStep s).withReply (.byte (localRead s s.crda))) :=
  (if_pos hrd).trans (if_pos (dmaUnit_eq_one_iff.2 hwts))

theorem exec_dataRd16_of_enabled (hrd : readEnabled s = true) (hwts : dcrWts s.dcr = true) :
    exec .dataRd16 s = .next ((dmaStep s).withReply (.word (localRead16 s s.crda))) :=
  (if_pos hrd).trans (if_pos (dmaUnit_eq_two_iff.2 hwts))

theorem exec_dataWr8_of_enabled (hwr : writeEnabled s = true) (hwts : dcrWts s.dcr = false) (v : Byte) :
    exec (.dataWr8 v) s = .next (dmaStep (localWrite s s.crda v)) :=
  (if_pos hwr).trans (if_pos (dmaUnit_eq_one_iff.2 hwts))

theorem exec_dataWr16_of_enabled (hwr : writeEnabled s = true) (hwts : dcrWts s.dcr = true) (v : Word) :
    exec (.dataWr16 v) s = .next (dmaStep (localWrite16 s s.crda v)) :=
  (if_pos hwr).trans (if_pos (dmaUnit_eq_two_iff.2 hwts))

/-- The shape of all four accesses: enabled or not, then of the unit's width or not (R252, R253). -/
theorem gated_refused_iff {enabled : Bool} {unit width : Nat} {transferred kept : State} :
    (if enabled then if unit = width then Host.Outcome.next transferred else .refused .dataPortWidth
      else (.next kept : Host.Outcome State Fault Refusal)) = .refused .dataPortWidth ↔
    enabled = true ∧ unit ≠ width := by
  cases enabled <;> by_cases h : unit = width <;> simp [h]

theorem dmaUnit_ne_one_iff : dmaUnit s ≠ 1 ↔ dcrWts s.dcr = true := by simp [dmaUnit_eq_one_iff]

theorem dmaUnit_ne_two_iff : dmaUnit s ≠ 2 ↔ dcrWts s.dcr = false := by simp [dmaUnit_eq_two_iff]

theorem exec_dataRd8_refused_iff :
    exec .dataRd8 s = .refused .dataPortWidth ↔ readEnabled s = true ∧ dcrWts s.dcr = true :=
  gated_refused_iff.trans (and_congr_right' dmaUnit_ne_one_iff)

theorem exec_dataRd16_refused_iff :
    exec .dataRd16 s = .refused .dataPortWidth ↔ readEnabled s = true ∧ dcrWts s.dcr = false :=
  gated_refused_iff.trans (and_congr_right' dmaUnit_ne_two_iff)

theorem exec_dataWr8_refused_iff (v : Byte) :
    exec (.dataWr8 v) s = .refused .dataPortWidth ↔ writeEnabled s = true ∧ dcrWts s.dcr = true :=
  gated_refused_iff.trans (and_congr_right' dmaUnit_ne_one_iff)

theorem exec_dataWr16_refused_iff (v : Word) :
    exec (.dataWr16 v) s = .refused .dataPortWidth ↔ writeEnabled s = true ∧ dcrWts s.dcr = false :=
  gated_refused_iff.trans (and_congr_right' dmaUnit_ne_two_iff)

/-! ### One unit -/

theorem crdaNext_of_no_wrap (h : hiByte (s.crda + BitVec.ofNat 16 (dmaUnit s)) ≠ s.pstop) :
    crdaNext s = s.crda + BitVec.ofNat 16 (dmaUnit s) := if_neg fun hwrap => h hwrap.1

theorem rbcrNext_of_byte (h : dcrWts s.dcr = false) : rbcrNext s = s.rbcr - 1 := by simp [rbcrNext, h]

theorem rbcrNext_of_word (h : dcrWts s.dcr = true) :
    rbcrNext s = if s.rbcr = 1 then 0 else s.rbcr - 2 := by
  simp only [rbcrNext, h, true_and, ne_eq]
  split_ifs <;> bv_omega

theorem dmaStep_of_count_left (h : rbcrNext s ≠ 0) :
    dmaStep s = { s with crda := crdaNext s, rbcr := rbcrNext s } := by
  rcases dmaStep_cases s with ⟨-, he⟩ | ⟨hzero, -⟩
  · exact he
  · exact absurd hzero h

/-- Completion: `ISR.RDC` set, `CR.RD` idle, the aggregation pass (R258). -/
theorem dmaStep_of_count_zero (h : rbcrNext s = 0) : dmaStep s = updateIrq { s with
    crda := crdaNext s, rbcr := 0, isr := s.isr ||| 0x40, cr := s.cr &&& 0xC7 } := by
  rcases dmaStep_cases s with ⟨hleft, -⟩ | ⟨-, he⟩
  · exact absurd h hleft
  · have hidle : setRd s.cr 0 = s.cr &&& 0xC7 := (setRd_mask s.cr 0).trans (BitVec.or_zero)
    rw [he, hidle]
    rfl

/-! ### What is left of a transfer -/

/-- The units that a count stands for: a count of 0 is 65536 bytes (R265), and in word mode an odd last byte is a unit of
its own (R257(b)). -/
def unitsLeft (s : State) : Nat :=
  let bytes := if s.rbcr = 0 then 65536 else s.rbcr.toNat
  (bytes + dmaUnit s - 1) / dmaUnit s

theorem unitsLeft_of_byte (h : dcrWts s.dcr = false) :
    unitsLeft s = if s.rbcr = 0 then 65536 else s.rbcr.toNat := by simp [unitsLeft, dmaUnit, h]

theorem unitsLeft_of_word (h : dcrWts s.dcr = true) :
    unitsLeft s = if s.rbcr = 0 then 32768 else (s.rbcr.toNat + 1) / 2 := by
  simp only [unitsLeft, dmaUnit, h, if_true]
  split_ifs <;> omega

theorem unitsLeft_pos : 0 < unitsLeft s := by
  cases h : dcrWts s.dcr
  · rw [unitsLeft_of_byte h]
    split_ifs <;> bv_omega
  · rw [unitsLeft_of_word h]
    split_ifs <;> bv_omega

/-- The count reaches zero with the last unit, and only then. -/
theorem rbcrNext_eq_zero_iff : rbcrNext s = 0 ↔ unitsLeft s = 1 := by
  cases h : dcrWts s.dcr
  · rw [unitsLeft_of_byte h, rbcrNext_of_byte h]
    split_ifs <;> bv_omega
  · rw [unitsLeft_of_word h, rbcrNext_of_word h]
    by_cases h1 : s.rbcr = 1
    · simp [h1]
    · rw [if_neg h1]
      split_ifs <;> bv_omega

theorem rbcrNext_of_more (h : 1 < unitsLeft s) : rbcrNext s = s.rbcr - BitVec.ofNat 16 (dmaUnit s) := by
  cases hwts : dcrWts s.dcr
  · simp [rbcrNext_of_byte hwts, dmaUnit, hwts]
  · have hne : s.rbcr ≠ 1 := by
      intro h1
      simp [unitsLeft_of_word hwts, h1] at h
    rw [rbcrNext_of_word hwts, if_neg hne]
    simp [dmaUnit, hwts]

theorem dmaStep_of_more (h : 1 < unitsLeft s) : dmaStep s =
    { s with crda := crdaNext s, rbcr := s.rbcr - BitVec.ofNat 16 (dmaUnit s) } := by
  rw [← rbcrNext_of_more h]
  exact dmaStep_of_count_left fun hzero => h.ne' (rbcrNext_eq_zero_iff.1 hzero)

theorem dmaStep_cr_of_more (h : 1 < unitsLeft s) : (dmaStep s).cr = s.cr := by rw [dmaStep_of_more h]

theorem dmaStep_isr_of_more (h : 1 < unitsLeft s) : (dmaStep s).isr = s.isr := by rw [dmaStep_of_more h]

theorem unitsLeft_dmaStep (h : 1 < unitsLeft s) : unitsLeft (dmaStep s) = unitsLeft s - 1 := by
  cases hwts : dcrWts s.dcr
  · have hwts' : dcrWts (dmaStep s).dcr = false := by rwa [dmaStep_dcr]
    rw [unitsLeft_of_byte hwts] at h ⊢
    rw [unitsLeft_of_byte hwts', dmaStep_rbcr, rbcrNext_of_byte hwts]
    split_ifs at h ⊢ <;> bv_omega
  · have hwts' : dcrWts (dmaStep s).dcr = true := by rwa [dmaStep_dcr]
    rw [unitsLeft_of_word hwts] at h ⊢
    rw [unitsLeft_of_word hwts', dmaStep_rbcr, rbcrNext_of_word hwts]
    split_ifs at h ⊢ <;> bv_omega

end
end Sys2Proof.Machine
end

section
/-! Proofs of the family 43_remote_dma, the layer of facts: a whole run of data-port accesses, from its set-up to the bytes
it stores and returns (spec/43_remote_dma.md R264, R265). -/

namespace Sys2Proof.Machine

open Sys2Proof.Safety

/-! ### Programs -/

theorem runAll_append {is js : List Instr} {s t : State} (h : runAll is s = .next t) :
    runAll (is ++ js) s = runAll js t := by
  induction is generalizing s with
  | nil =>
    obtain rfl := Host.Outcome.next.inj h
    rfl
  | cons i is ih =>
    rw [runAll] at h
    cases hi : exec i s with
    | next u => rw [hi] at h; rw [List.cons_append, runAll_cons_of_next hi, ih h]
    | fault r => cases r
    | refused r => rw [hi] at h; cases h

theorem runAll_singleton {i : Instr} {s t : State} (h : exec i s = .next t) : runAll [i] s = .next t :=
  runAll_cons_of_next h

/-! ### A run of reads -/

/-- The data-port read of the unit's width. -/
def unitRead (wide : Bool) : Instr := if wide then .dataRd16 else .dataRd8

theorem exec_unitRead {s : State} (hrd : readEnabled s = true) :
    ∃ r, exec (unitRead (dcrWts s.dcr)) s = .next ((dmaStep s).withReply r) := by
  cases hwts : dcrWts s.dcr with
  | false => exact ⟨_, exec_dataRd8_of_enabled hrd hwts⟩
  | true => exact ⟨_, exec_dataRd16_of_enabled hrd hwts⟩

section
variable {s t : State}

theorem readEnabled_congr (h : t.cr = s.cr) : readEnabled t = readEnabled s := by rw [readEnabled, readEnabled, h]

theorem writeEnabled_congr (h : t.cr = s.cr) : writeEnabled t = writeEnabled s := by rw [writeEnabled, writeEnabled, h]

/-- Reads before the last one count down and leave `CR`, `ISR` and `DCR` as they are. -/
theorem runAll_reads (hrd : readEnabled s = true) {k : Nat} (hk : k < unitsLeft s) :
    ∃ t, runAll (List.replicate k (unitRead (dcrWts s.dcr))) s = .next t ∧ unitsLeft t = unitsLeft s - k ∧
      t.rbcr = s.rbcr - BitVec.ofNat 16 (dmaUnit s * k) ∧ t.cr = s.cr ∧ t.isr = s.isr ∧ t.dcr = s.dcr := by
  induction k with
  | zero => exact ⟨s, rfl, rfl, by simp, rfl, rfl, rfl⟩
  | succ k ih =>
    obtain ⟨t, hrun, hleft, hrbcr, hcr, hisr, hdcr⟩ := ih (by omega)
    have hmore : 1 < unitsLeft t := by omega
    have hunit : dmaUnit t = dmaUnit s := by rw [dmaUnit, dmaUnit, hdcr]
    obtain ⟨r, hexec⟩ := exec_unitRead ((readEnabled_congr hcr).trans hrd)
    rw [hdcr] at hexec
    refine ⟨(dmaStep t).withReply r, ?run, (unitsLeft_dmaStep hmore).trans (by omega), ?count,
      (dmaStep_cr_of_more hmore).trans hcr, (dmaStep_isr_of_more hmore).trans hisr, (dmaStep_dcr t).trans hdcr⟩
    case run => rw [List.replicate_succ', runAll_append hrun, runAll_singleton hexec]
    case count =>
      rw [State.withReply_rbcr, dmaStep_rbcr, rbcrNext_of_more hmore, hunit, hrbcr, Nat.mul_succ,
        BitVec.ofNat_add, sub_sub]

/-- The read of the last unit completes the transfer (R258). -/
theorem runAll_reads_to_end (hrd : readEnabled s = true) :
    ∃ t, runAll (List.replicate (unitsLeft s) (unitRead (dcrWts s.dcr))) s = .next t ∧
      t.rbcr = 0 ∧ t.cr = s.cr &&& 0xC7 ∧ t.isr.getLsbD 6 = true := by
  have hpos : 0 < unitsLeft s := unitsLeft_pos
  obtain ⟨t, hrun, hleft, -, hcr, -, hdcr⟩ := runAll_reads hrd (k := unitsLeft s - 1) (by omega)
  have hlast : rbcrNext t = 0 := rbcrNext_eq_zero_iff.2 (by omega)
  have hrdc : (t.isr ||| 0x40).getLsbD 6 = true := by simp
  obtain ⟨r, hexec⟩ := exec_unitRead ((readEnabled_congr hcr).trans hrd)
  rw [hdcr] at hexec
  refine ⟨(dmaStep t).withReply r, ?run, ?_⟩
  case run => rw [← Nat.sub_add_cancel hpos, List.replicate_succ', runAll_append hrun, runAll_singleton hexec]
  rw [dmaStep_of_count_zero hlast, ← hcr]
  exact ⟨rfl, rfl, (isrWithCnt_other _ 6 (by decide)).trans hrdc⟩

/-- A whole run of reads, for the width, the unit and the number of units that the mode gives. -/
theorem runAll_reads_whole {wide : Bool} {n unit : Nat} (hrd : readEnabled s = true) (hwts : dcrWts s.dcr = wide)
    (hn : unitsLeft s = n) (hunit : dmaUnit s = unit) :
    (∀ k, k < n → ∃ t, runAll (List.replicate k (unitRead wide)) s = .next t ∧
      t.rbcr = s.rbcr - BitVec.ofNat 16 (unit * k) ∧ t.cr = s.cr ∧ t.isr = s.isr) ∧
    ∃ t, runAll (List.replicate n (unitRead wide)) s = .next t ∧
      t.rbcr = 0 ∧ t.cr = s.cr &&& 0xC7 ∧ t.isr.getLsbD 6 = true := by
  subst hwts hn hunit
  refine ⟨fun k hk => ?_, runAll_reads_to_end hrd⟩
  obtain ⟨t, hrun, -, hrbcr, hcr, hisr, -⟩ := runAll_reads hrd hk
  exact ⟨t, hrun, hrbcr, hcr, hisr⟩

/-! ### A transfer in byte mode that meets no ring end -/

/-- `n` bytes are left to move in byte mode, and of them none after the first lies in page `PSTOP`, so that `CRDA` does not
wrap between them (R256). -/
structure ByteRun (s : State) (n : Nat) : Prop where
  byteMode : dcrWts s.dcr = false
  left : n ≤ unitsLeft s
  noWrap : ∀ i, 0 < i → i < n → hiByte (s.crda + BitVec.ofNat 16 i) ≠ s.pstop

theorem ByteRun.mono {m n : Nat} (h : ByteRun s n) (hle : m ≤ n) : ByteRun s m :=
  ⟨h.byteMode, hle.trans h.left, fun i hi hlt => h.noWrap i hi (hlt.trans_le hle)⟩

theorem ByteRun.after_withReply {n : Nat} (h : ByteRun s n) (r : Reply) : ByteRun (s.withReply r) n :=
  ⟨h.byteMode, h.left, h.noWrap⟩

theorem ByteRun.after_localWrite {n : Nat} (h : ByteRun s n) (a : Word) (b : Byte) : ByteRun (localWrite s a b) n := by
  rw [localWrite_eq]
  exact ⟨h.byteMode, h.left, h.noWrap⟩

theorem add_one_add_ofNat (a : Word) (i : Nat) : a + 1 + BitVec.ofNat 16 i = a + BitVec.ofNat 16 (i + 1) := by
  rw [Nat.add_comm i 1, BitVec.ofNat_add, BitVec.add_assoc]
  rfl

/-- A unit that is not the last leaves `CR`, moves to the next address, and leaves one byte less. -/
theorem ByteRun.after_dmaStep {n : Nat} (h : ByteRun s (n + 1)) (hn : 0 < n) :
    (dmaStep s).cr = s.cr ∧ (dmaStep s).crda = s.crda + 1 ∧ ByteRun (dmaStep s) n := by
  have ⟨hwts, hleft, hwrap⟩ := h
  have hmore : 1 < unitsLeft s := by omega
  have hunit : dmaUnit s = 1 := dmaUnit_eq_one_iff.2 hwts
  have hpage : hiByte (s.crda + BitVec.ofNat 16 (dmaUnit s)) ≠ s.pstop := hunit ▸ hwrap 1 one_pos (by omega)
  have hcrda : (dmaStep s).crda = s.crda + 1 := by
    rw [dmaStep_crda, crdaNext_of_no_wrap hpage, hunit]
    rfl
  refine ⟨dmaStep_cr_of_more hmore, hcrda, ?_, ?_, fun i hi hlt => ?_⟩
  · rwa [dmaStep_dcr]
  · rw [unitsLeft_dmaStep hmore]
    omega
  · rw [hcrda, dmaStep_pstop, add_one_add_ofNat]
    exact hwrap (i + 1) (by omega) (by omega)

/-- What a run of writes stores depends on local RAM and the configuration only. -/
theorem localWriteList_ram_congr (hram : t.ram = s.ram) (hcfg : t.cfg = s.cfg) (a : Word) (bs : List Byte) :
    (localWriteList t a bs).ram = (localWriteList s a bs).ram := by
  induction bs generalizing s t a with
  | nil => exact hram
  | cons b bs ih =>
    refine ih ?_ ?_ (a + 1)
    · rw [localWrite_eq, localWrite_eq, hram, hcfg]
      rfl
    · rwa [localWrite_cfg, localWrite_cfg]

/-- Writes of no more bytes than are left store them at ascending addresses. -/
theorem runAll_byte_writes {bs : List Byte} (hwr : writeEnabled s = true) (h : ByteRun s bs.length) :
    ∃ t, runAll (bs.map .dataWr8) s = .next t ∧ t.ram = (localWriteList s s.crda bs).ram ∧
      t.cfg = s.cfg ∧ t.dcr = s.dcr ∧ t.pstop = s.pstop := by
  induction bs generalizing s with
  | nil => exact ⟨s, rfl, rfl, rfl, rfl, rfl⟩
  | cons b bs ih =>
    have hexec := exec_dataWr8_of_enabled hwr h.byteMode b
    cases bs with
    | nil => exact ⟨_, runAll_singleton hexec, by simp [localWriteList]⟩
    | cons c bs =>
      obtain ⟨hcr, hcrda, hrest⟩ := (h.after_localWrite s.crda b).after_dmaStep
        (List.length_pos_of_mem List.mem_cons_self)
      rw [localWrite_cr] at hcr
      rw [localWrite_crda] at hcrda
      obtain ⟨t, hrun, hram, hkept⟩ := ih ((writeEnabled_congr hcr).trans hwr) hrest
      refine ⟨t, (runAll_cons_of_next hexec).trans hrun, ?ram, by simpa using hkept⟩
      case ram =>
        rw [hram, hcrda]
        exact localWriteList_ram_congr (dmaStep_ram _) (dmaStep_cfg _) _ _

/-- Reads of no more bytes than are left return what stands at ascending addresses. -/
theorem runAll_byte_reads {i : Nat} (hrd : readEnabled s = true) (h : ByteRun s (i + 1)) :
    ∃ t, runAll (List.replicate (i + 1) .dataRd8) s = .next t ∧
      t.reply = some (.byte (localRead s (s.crda + BitVec.ofNat 16 i))) := by
  induction i generalizing s with
  | zero => exact ⟨_, runAll_singleton (exec_dataRd8_of_enabled hrd h.byteMode), by simp⟩
  | succ i ih =>
    have hexec := exec_dataRd8_of_enabled hrd h.byteMode
    obtain ⟨hcr, hcrda, hrest⟩ := h.after_dmaStep i.succ_pos
    obtain ⟨t, hrun, hreply⟩ := ih (s := (dmaStep s).withReply (.byte (localRead s s.crda)))
      ((readEnabled_congr hcr).trans hrd) (hrest.after_withReply _)
    refine ⟨t, (runAll_cons_of_next hexec).trans hrun, ?_⟩
    rw [hreply, State.withReply_crda, hcrda, add_one_add_ofNat, localRead_congr (s := s) (by simp) (by simp)]

end

/-! ### The start of a transfer -/

/-- The state after `RSAR` and `RBCR` are set up and a Read or Write command is given (R112, R143, R144, R238, R239). -/
def startTransfer (s : State) (a n : Word) (rd : BitVec 3) : State :=
  { s with rsar := a, crda := a, rbcr := n, cr := setRd s.cr rd }

/-- The two halves of a register, written one after the other. -/
theorem setHiByte_setLoByte (w v : Word) : setHiByte (setLoByte w (loByte v)) (hiByte v) = v := by
  rw [setHiByte, setLoByte, wordOf_lo, wordOf_hi_lo]

theorem runAll_setupTransfer (s : State) (a n : Word) :
    runAll (setupTransfer a n) s = .next { s with rsar := a, crda := a, rbcr := n } := by
  have hrun : runAll (setupTransfer a n) s = .next { s with
      rsar := setHiByte (setLoByte s.rsar (loByte a)) (hiByte a)
      crda := setHiByte (setLoByte s.crda (loByte a)) (hiByte a)
      rbcr := setHiByte (setLoByte s.rbcr (loByte n)) (hiByte n) } := rfl
  simpa only [setHiByte_setLoByte] using hrun

theorem runAll_start_write (s : State) (a n : Word) :
    runAll (setupTransfer a n ++ [.crRdWrite]) s = .next (startTransfer s a n 2) := by
  rw [runAll_append (runAll_setupTransfer s a n)]
  exact congrArg Host.Outcome.next (remoteCommand_eq _ 2)

/-- The start of a transfer that comes after another program. -/
theorem runAll_then_start_read {p : List Instr} {s u : State} (h : runAll p s = .next u) (a n : Word) :
    runAll (p ++ setupTransfer a n ++ [.crRdRead]) s = .next (startTransfer u a n 1) := by
  rw [runAll_append ((runAll_append h).trans (runAll_setupTransfer u a n))]
  exact congrArg Host.Outcome.next (remoteCommand_eq _ 1)

theorem writeEnabled_startTransfer (s : State) (a n : Word) : writeEnabled (startTransfer s a n 2) = true :=
  writeEnabled_iff.2 (crRd_setRd _ _)

theorem readEnabled_startTransfer (s : State) (a n : Word) : readEnabled (startTransfer s a n 1) = true :=
  readEnabled_iff.2 (.inl (crRd_setRd _ _))

theorem byteRun_startTransfer {s : State} {a : Word} {n : Nat} (hwts : dcrWts s.dcr = false) (hpos : 1 ≤ n)
    (hlt : n < 65536) (hwrap : ∀ i, 0 < i → i < n → hiByte (a + BitVec.ofNat 16 i) ≠ s.pstop) (rd : BitVec 3) :
    ByteRun (startTransfer s a (BitVec.ofNat 16 n) rd) n := by
  refine ⟨hwts, ?_, hwrap⟩
  have hcount : (BitVec.ofNat 16 n).toNat = n := by rw [BitVec.toNat_ofNat, Nat.mod_eq_of_lt hlt]
  calc n ≤ if BitVec.ofNat 16 n = 0 then 65536 else (BitVec.ofNat 16 n).toNat := by split_ifs <;> omega
    _ = unitsLeft (startTransfer s a (BitVec.ofNat 16 n) rd) :=
      (unitsLeft_of_byte (s := startTransfer s a (BitVec.ofNat 16 n) rd) hwts).symm

/-! ### Local RAM behind the addresses -/

/-- Two addresses that decode to one byte of local RAM are equal modulo its size (R84 to R87). -/
theorem decodeLocal_mod_eq {v : Variant} {a b : Word} {o : Nat} (ha : decodeLocal v a = some o)
    (hb : decodeLocal v b = some o) : a.toNat % Config.memSize = b.toNat % Config.memSize := by
  rw [Config.memSize]
  cases v <;> simp only [decodeLocal, Option.ite_none_right_eq_some, Option.some.injEq] at ha hb <;> omega

/-- A run shorter than local RAM does not come back to the byte of its first address. -/
theorem decodeLocal_add_ne {v : Variant} {a : Word} {o k : Nat} (ha : decodeLocal v a = some o) (hpos : 0 < k)
    (hlt : k < Config.memSize) : decodeLocal v (a + BitVec.ofNat 16 k) ≠ some o := by
  intro hk
  have hmod := decodeLocal_mod_eq ha hk
  rw [BitVec.toNat_add, BitVec.toNat_ofNat, Config.memSize] at hmod
  rw [Config.memSize] at hlt
  omega

theorem localRead_of_decode {s : State} {a : Word} {o : Nat} (h : decodeLocal s.cfg.variant a = some o) :
    localRead s a = Memory.read s.ram o := by rw [localRead, h]

theorem localRead_of_undecoded {s : State} {a : Word} (h : decodeLocal s.cfg.variant a = none) :
    localRead s a = s.cfg.undecodedRead := by rw [localRead, h]

/-- A run of writes that fits local RAM is read back at the addresses it was written to. -/
theorem localRead_localWriteList {s : State} (hram : RamCanonical s) {a : Word} {bs : List Byte}
    (hlen : bs.length ≤ Config.memSize)
    (hdec : ∀ i, i < bs.length → (decodeLocal s.cfg.variant (a + BitVec.ofNat 16 i)).isSome) {i : Nat}
    (hi : i < bs.length) : localRead (localWriteList s a bs) (a + BitVec.ofNat 16 i) = bs[i] := by
  induction bs generalizing s a i with
  | nil => exact absurd hi (Nat.not_lt_zero i)
  | cons b bs ih =>
    rw [List.length_cons] at hlen hdec hi
    cases i with
    | zero =>
      obtain ⟨o, ho⟩ := Option.isSome_iff_exists.1 (hdec 0 hi)
      rw [BitVec.add_zero] at ho ⊢
      have hlater : ∀ j, j < bs.length →
          decodeLocal (localWrite s a b).cfg.variant (a + 1 + BitVec.ofNat 16 j) ≠ some o := fun j hj => by
        rw [localWrite_cfg, add_one_add_ofNat]
        exact decodeLocal_add_ne ho j.succ_pos (by omega)
      rw [localRead_of_decode (by simpa using ho), localWriteList, localWriteList_read_other _ hlater,
        localWrite_read_same hram ho]
      rfl
    | succ i =>
      rw [← add_one_add_ofNat, localWriteList]
      refine ih (localWrite_wf hram a b) (by omega) (fun j hj => ?_) (by omega)
      rw [localWrite_cfg, add_one_add_ofNat]
      exact hdec (j + 1) (by omega)

end Sys2Proof.Machine
end

section
/-! Proofs of the family 43_remote_dma, the layer of facts: local RAM under each operation of an instruction
(spec/20_memory.md R80). -/

namespace Sys2Proof.Machine

section
variable (s : State)

@[simp] theorem txEngine_ram : (txEngine s).ram = s.ram := by
  obtain ⟨tsr, rsr, cause, fifo, wp, loopOut, netTx, answers, count, h, -, -⟩ := txEngine_cases s
  rw [h, updateIrq_ram]

@[simp] theorem transmitTrigger_ram (txp : Bool) : (transmitTrigger s txp).ram = s.ram := by
  rcases transmitTrigger_cases s txp with ⟨h, -⟩ | ⟨h, -⟩ <;> simp [h]

@[simp] theorem remoteCommand_ram (rd : BitVec 3) : (remoteCommand s rd).ram = s.ram := by
  rw [remoteCommand_eq]

@[simp] theorem startStop_ram (stp sta : Bool) : (startStop s stp sta).ram = s.ram := rfl
@[simp] theorem selectPage_ram (ps : BitVec 2) : (selectPage s ps).ram = s.ram := rfl

/-- No instruction but a data-port write changes local RAM. A case that is not named writes fields given in its meaning
itself, local RAM not among them, so that it is kept by definition. -/
theorem exec_keepsRam {i : Instr} (h8 : ∀ v, i ≠ .dataWr8 v) (h16 : ∀ v, i ≠ .dataWr16 v) :
    KeepsField State.ram s (exec i s) := by
  cases i
  case wrCr d => rw [exec_wrCr]; simp
  case crTxp => exact keepsField_next.2 (transmitTrigger_ram s true)
  case crRdInvalid => exact keepsField_next.2 (remoteCommand_ram s 0)
  case crRdRead => exact keepsField_next.2 (remoteCommand_ram s 1)
  case crRdWrite => exact keepsField_next.2 (remoteCommand_ram s 2)
  case crRdSend => exact keepsField_next.2 (remoteCommand_ram s 3)
  case crRdAbort rd => exact keepsField_next.2 (remoteCommand_ram s rd)
  case dataRd8 => rcases execDataRd8_cases s with ⟨-, -, h⟩ | ⟨-, -, h⟩ | ⟨-, h⟩ <;> simp [exec, h]
  case dataRd16 => rcases execDataRd16_cases s with ⟨-, -, h⟩ | ⟨-, -, h⟩ | ⟨-, h⟩ <;> simp [exec, h]
  case dataWr8 v => exact absurd rfl (h8 v)
  case dataWr16 v => exact absurd rfl (h16 v)
  all_goals exact keepsField_next.2 rfl

end

/-! ### The masks of the decode -/

theorem toNat_and_0x3FFF (a : Word) : (a &&& 0x3FFF).toNat = a.toNat % 0x4000 :=
  (BitVec.toNat_and a _).trans (Nat.and_two_pow_sub_one_eq_mod a.toNat 14)

theorem toNat_and_0x7FFF (a : Word) : (a &&& 0x7FFF).toNat = a.toNat % 0x8000 :=
  (BitVec.toNat_and a _).trans (Nat.and_two_pow_sub_one_eq_mod a.toNat 15)

end Sys2Proof.Machine
end

section
/-! Proofs of the family 43_remote_dma: the statements. -/

namespace Sys2Proof.Proofs

open Sys2Proof.Machine Sys2Proof.Safety

/-- Settles O24: the second address of a 16-bit write decodes to another byte than the first, so that both bytes stand. -/
theorem dataPortWritesTransferAndStoreOnlyTheirBytes : Obligations.DataPortWritesTransferAndStoreOnlyTheirBytes := by
  intro s hmode hram
  have hwr : writeEnabled s = true := writeEnabled_iff.2 hmode
  refine ⟨fun hwts v => ⟨exec_dataWr8_of_enabled hwr hwts v, fun o ho => ?_, fun o ho => ?_⟩, fun hwts v =>
    ⟨_, exec_dataWr16_of_enabled hwr hwts v, rfl, fun o ho => ?_, fun o ho => ?_, fun o hlo hhi => ?_⟩⟩
  · rw [dmaStep_ram, localWrite_read_same hram ho]
  · rw [dmaStep_ram, localWrite_read_other s ho]
  · have hother : decodeLocal s.cfg.variant (s.crda + 1) ≠ some o := decodeLocal_add_ne ho one_pos (by decide)
    rw [dmaStep_ram, localWrite16, localWrite_read_other _ (by simpa using hother), localWrite_read_same hram ho]
    rfl
  · rw [dmaStep_ram, localWrite16, localWrite_read_same (localWrite_wf hram _ _) (by simpa using ho)]
    rfl
  · rw [dmaStep_ram, localWrite16, localWrite_read_other _ (by simpa using hhi), localWrite_read_other s hlo]

/-- Settles O30: for each width `unitsLeft` is the number of accesses that the statement gives. -/
theorem remoteCountRunsDownAndZeroMeansWhole : Obligations.RemoteCountRunsDownAndZeroMeansWhole := by
  intro s hmode
  have hrd : readEnabled s = true := readEnabled_iff.2 (.inl hmode)
  refine ⟨fun hwts => ?byte, fun hwts => ?word⟩
  case byte =>
    have hrun := runAll_reads_whole hrd hwts (unitsLeft_of_byte hwts) (dmaUnit_eq_one_iff.2 hwts)
    simp only [one_mul] at hrun
    exact hrun
  case word => exact runAll_reads_whole hrd hwts (unitsLeft_of_word hwts) (dmaUnit_eq_two_iff.2 hwts)

/-- Settles O31: a start, the run of writes, a start, the run of reads; what the writes left in local RAM is what the reads
return. -/
theorem remoteDmaRoundTripReturnsTheBytes : Obligations.RemoteDmaRoundTripReturnsTheBytes := by
  intro s a bs hwts hram hpos hlen hdec hwrap i hi
  have hcount : bs.length < 65536 := by omega
  obtain ⟨u, hwritten, humem, hucfg, hudcr, hupstop⟩ := runAll_byte_writes (writeEnabled_startTransfer s a _)
    (byteRun_startTransfer hwts hpos hcount hwrap 2)
  have hback : ByteRun (startTransfer u a (BitVec.ofNat 16 bs.length) 1) bs.length :=
    byteRun_startTransfer (hudcr ▸ hwts) hpos hcount (hupstop ▸ hwrap) 1
  obtain ⟨t, hread, hreply⟩ := runAll_byte_reads (readEnabled_startTransfer u a _) (hback.mono hi)
  refine ⟨t, ?run, hreply.trans (congrArg (fun b => some (Reply.byte b)) ?byte)⟩
  case run =>
    exact (runAll_append (runAll_then_start_read ((runAll_append (runAll_start_write s a _)).trans hwritten) a _)).trans
      hread
  case byte =>
    calc localRead (startTransfer u a _ 1) (a + BitVec.ofNat 16 i)
        = localRead (localWriteList (startTransfer s a (BitVec.ofNat 16 bs.length) 2) a bs) (a + BitVec.ofNat 16 i) :=
          localRead_congr humem (hucfg.trans (localWriteList_cfg _ _ _).symm) _
      _ = bs[i] := localRead_localWriteList (s := startTransfer s a (BitVec.ofNat 16 bs.length) 2) hram hlen hdec hi

/-- Settles O48: every other instruction keeps local RAM. -/
theorem onlyDataPortWritesChangeRamAmongInstructions : Obligations.OnlyDataPortWritesChangeRamAmongInstructions := by
  intro i s t h hne
  by_contra hnone
  obtain ⟨h8, h16⟩ := not_or.1 hnone
  exact hne (exec_keepsRam s (not_exists.1 h8) (not_exists.1 h16) t h)

/-- Settles O23: a mask of low bits is a remainder; then the reads by their mode and width. -/
theorem dataPortReadsTransfer : Obligations.DataPortReadsTransfer := by
  intro s
  refine ⟨fun a => ?decode, fun hmode => ⟨fun hwts => exec_dataRd8_of_enabled (readEnabled_iff.2 hmode) hwts,
    fun hwts => exec_dataRd16_of_enabled (readEnabled_iff.2 hmode) hwts⟩⟩
  simp only [toNat_and_0x3FFF, toNat_and_0x7FFF]
  refine ⟨fun h => ⟨if_pos h, if_pos h⟩, fun h => ⟨if_neg h.not_ge, if_neg h.not_ge⟩, fun h => if_pos h,
    fun h => if_neg h.not_ge, rfl, rfl, fun o => localRead_of_decode, localRead_of_undecoded⟩

/-- Settles O25: the test of the mode comes before everything else. -/
theorem disabledDataPortMovesNothing : Obligations.DisabledDataPortMovesNothing := by
  intro s
  refine ⟨fun h1 h3 => ?_, fun h2 v w => ?_⟩
  · have hrd : ¬ readEnabled s = true := fun h => (readEnabled_iff.1 h).elim h1 h3
    exact ⟨if_neg hrd, if_neg hrd⟩
  · have hwr : ¬ writeEnabled s = true := fun h => h2 (writeEnabled_iff.1 h)
    exact ⟨if_neg hwr, if_neg hwr⟩

/-- Settles O26: the four accesses by mode and unit. -/
theorem wrongWidthTransfersAreRefused : Obligations.WrongWidthTransfersAreRefused := fun _ v w =>
  ⟨exec_dataRd8_refused_iff.trans (and_congr_left' readEnabled_iff),
    exec_dataRd16_refused_iff.trans (and_congr_left' readEnabled_iff),
    (exec_dataWr8_refused_iff v).trans (and_congr_left' writeEnabled_iff),
    (exec_dataWr16_refused_iff w).trans (and_congr_left' writeEnabled_iff)⟩

/-- Settles O27: the count after the unit decides whether the transfer completes. -/
theorem dmaStepAdvancesCountsAndCompletes : Obligations.DmaStepAdvancesCountsAndCompletes := by
  intro s next crda one rbcr
  have hunit : BitVec.ofNat 16 (dmaUnit s) = if s.dcr.getLsbD 0 then 2#16 else 1#16 := apply_ite _ _ _ _
  have hcrda : crdaNext s = crda := by
    rw [crdaNext, hunit]
    rfl
  have hrbcr : rbcrNext s = rbcr := rfl
  by_cases hzero : rbcr = 0
  · rw [if_pos hzero, dmaStep_of_count_zero (hrbcr.trans hzero), hcrda]
  · rw [if_neg hzero, dmaStep_of_count_left fun h => hzero (hrbcr.symm.trans h), hcrda, hrbcr]

/-- Settles O28: the listed fields, then the pass, by definition of `softReset`. -/
theorem resetPortWriteIsSoftReset : Obligations.ResetPortWriteIsSoftReset := fun _ _ => rfl

/-- Settles O29: the byte is the free value that `RESET.RD` draws. -/
theorem resetPortReadResetsAndReturnsSomeByte : Obligations.ResetPortReadResetsAndReturnsSomeByte := fun _ => ⟨_, rfl⟩

end Sys2Proof.Proofs
end

section
/-! Proofs of the family 44_receive, the layer of facts: the gate, the address filter and what a receive does at each of its
outcomes (spec/44_receive.md R281 to R305). -/

namespace Sys2Proof.Machine

section
variable {s : State} {frame : List Byte}

/-! ### The gate and the address filter -/

theorem accepting_iff : accepting s frame = true ↔
    s.running = true ∧ s.linkUp = true ∧ s.cr.getLsbD 1 = true ∧ s.cr.getLsbD 0 = false ∧ 8 ≤ frame.length := by
  have hlen : decide (Config.minReceive ≤ frame.length) = true ↔ 8 ≤ frame.length := decide_eq_true_iff
  simp only [accepting, rxReady, crSta, crStp, Bool.and_eq_true, Bool.not_eq_true', hlen, and_assoc]

variable {d : List Byte}

/-- The station address byte by byte (R286). -/
theorem isPadr_iff {d0 d1 d2 d3 d4 d5 : Byte} : isPadr s [d0, d1, d2, d3, d4, d5] = true ↔
    d0 = s.par[0] ∧ d1 = s.par[1] ∧ d2 = s.par[2] ∧ d3 = s.par[3] ∧ d4 = s.par[4] ∧ d5 = s.par[5] := by
  have hpar : s.par.toList = [s.par[0], s.par[1], s.par[2], s.par[3], s.par[4], s.par[5]] :=
    List.ext_getElem (by simp) fun i hi _ => by
      have : i < 6 := by simpa using hi
      interval_cases i <;> simp
  simp [isPadr, hpar]

theorem isBcast_iff {d0 d1 d2 d3 d4 d5 : Byte} : isBcast s [d0, d1, d2, d3, d4, d5] = true ↔
    s.rcr.getLsbD 2 = true ∧ d0 = 0xFF ∧ d1 = 0xFF ∧ d2 = 0xFF ∧ d3 = 0xFF ∧ d4 = 0xFF ∧ d5 = 0xFF := by
  simp [isBcast, rcrAb]

theorem isMcast_cons_iff {b : Byte} : isMcast s (b :: d) = true ↔
    s.rcr.getLsbD 3 = true ∧ b.getLsbD 0 = true ∧
      (s.mar.toList.getD ((mcHash (b :: d)).toNat / 8) 0).getLsbD ((mcHash (b :: d)).toNat % 8) = true := by
  simp [isMcast, rcrAm, multicastBit, filterBit, and_assoc]

theorem isProm_cons_iff {b : Byte} : isProm s (b :: d) = true ↔ s.rcr.getLsbD 4 = true ∧ b.getLsbD 0 = false := by
  simp [isProm, rcrPro, multicastBit]

theorem phyStatus_eq (m : AddrMatch) : phyStatus m = if m = .bcast ∨ m = .mcast then 0x20 else 0x00 := by
  cases m <;> rfl

/-- The two statuses a receive ends with (R302): without `MPA` it is intact, with `MPA` it is not. -/
theorem rsrIntact_phyStatus (m : AddrMatch) : rsrIntact (phyStatus m) = true := by cases m <;> rfl

theorem rsrIntact_missed (m : AddrMatch) : rsrIntact (setBits (phyStatus m) rsrMpa) = false := by cases m <;> rfl

theorem countMissed_eq (s : State) :
    countMissed s = { s with cntr2 := if s.cntr2 < 192 then s.cntr2 + 1 else s.cntr2 } := by
  have hcap : Config.tallyCap = 192 := rfl
  rw [countMissed, hcap]
  split_ifs <;> rfl

theorem padFrame_length (frame : List Byte) : (padFrame frame).length = max frame.length 60 := by
  simp [padFrame, Config.padLength]
  omega

theorem padFrame_ne_nil (frame : List Byte) : padFrame frame ≠ [] := by
  rw [← List.length_pos_iff, padFrame_length]
  omega

/-- The fields that the two outcomes of the ring writer leave for the end of a receive (R300, R301). -/
theorem storeFrame_fields (s : State) (g : List Byte) :
    (∃ u, storeFrame s g = (u, false) ∧ u.isr = s.isr ∧ u.cntr2 = s.cntr2 ∧ u.curr = s.curr ∧
      u.clda = wordOf (hiByte u.clda) 0 ∧ hiByte u.clda ≠ s.bnry) ∨
    (∃ u, storeFrame s g = (u, true) ∧ u.isr = setBits s.isr (isrOvw ||| isrRst) ∧ u.cntr2 = s.cntr2 ∧
      u.curr = s.curr ∧ u.clda = wordOf s.bnry 0) := by
  obtain ⟨m, c, -, ⟨h, hlo, hhi⟩ | ⟨h, hhi, hlo⟩⟩ := storeFrame_cases s g
  · exact .inl ⟨_, h, rfl, rfl, rfl, by rw [← hlo, wordOf_hi_lo], hhi⟩
  · exact .inr ⟨_, h, rfl, rfl, rfl, by rw [← hhi, ← hlo, wordOf_hi_lo]⟩

/-! ### The outcomes of a receive -/

theorem netRx_of_not_accepting (h : ¬ accepting s frame = true) : netRx s frame = s := if_neg h

theorem netRx_of_no_match (h : matchAddr s (frame.take 6) = .none) : netRx s frame = s := by
  simp [netRx, h]

section
variable (hacc : accepting s frame = true) (hmatch : matchAddr s (frame.take 6) ≠ .none)
include hacc hmatch

/-- Monitor mode ends with a status that is not intact (R296, R302). -/
theorem netRx_of_monitor (hmon : rcrMon s.rcr = true) : netRx s frame = updateIrq { countMissed s with
    isr := setBits (countMissed s).isr isrRxe
    rsr := setBits (phyStatus (matchAddr s (frame.take 6))) rsrMpa } := by
  rw [← finishReceive_error (countMissed s) s.curr _ (padFrame frame).length (rsrIntact_missed _)]
  simp [netRx, hacc, hmatch, hmon]

variable (hmon : rcrMon s.rcr = false) {u : State}
include hmon

/-- A frame that the ring holds ends with an intact status: header, `CURR`, `RSR.PRX`, `ISR.PRX` (R302 to R305). -/
theorem netRx_of_stored (hstore : storeFrame s (padFrame frame) = (u, false)) : netRx s frame = updateIrq { u with
    ram := (writeHeader u s.curr (setBits (phyStatus (matchAddr s (frame.take 6))) rsrPrx) (hiByte u.clda)
      (BitVec.ofNat 16 ((padFrame frame).length + 8))).ram
    isr := setBits u.isr isrPrx, curr := hiByte u.clda
    rsr := setBits (phyStatus (matchAddr s (frame.take 6))) rsrPrx } := by
  rw [← finishReceive_intact u s.curr _ _ (rsrIntact_phyStatus _)]
  simp [netRx, hacc, hmatch, hmon, hstore]

/-- A frame that overflows the ring ends with a status that is not intact (R301, R302). -/
theorem netRx_of_overflow (hstore : storeFrame s (padFrame frame) = (u, true)) : netRx s frame = updateIrq { u with
    isr := setBits u.isr isrRxe, rsr := setBits (phyStatus (matchAddr s (frame.take 6))) rsrMpa } := by
  rw [← finishReceive_error u s.curr _ (padFrame frame).length (rsrIntact_missed _)]
  simp [netRx, hacc, hmatch, hmon, hstore]

/-- What an accepted frame leaves in the registers, by the answer of the ring writer (R301 to R305). -/
theorem netRx_fields : (netRx s frame).cntr2 = s.cntr2 ∧
    (((netRx s frame).rsr = phyStatus (matchAddr s (frame.take 6)) ||| 0x01 ∧
        (netRx s frame).isr ||| 0x20 = s.isr ||| 0x21 ∧ (netRx s frame).clda = wordOf (netRx s frame).curr 0 ∧
        (netRx s frame).curr ≠ s.bnry) ∧ (storeFrame s (padFrame frame)).2 = false ∨
      ((netRx s frame).rsr = phyStatus (matchAddr s (frame.take 6)) ||| 0x10 ∧
        (netRx s frame).isr ||| 0x20 = s.isr ||| 0xB4 ∧ (netRx s frame).clda = wordOf s.bnry 0 ∧
        (netRx s frame).curr = s.curr) ∧ (storeFrame s (padFrame frame)).2 = true) := by
  rcases storeFrame_fields s (padFrame frame) with
    ⟨u, hstore, hisr, hcntr2, -, hclda, hne⟩ | ⟨u, hstore, hisr, hcntr2, hcurr, hclda⟩
  · have hbits : ∀ i : Byte, setBits i isrPrx ||| 0x20 = i ||| 0x21 := by decide
    rw [netRx_of_stored hacc hmatch hmon hstore, hstore, updateIrq_isr, isrWithCnt_or, hbits, hisr]
    exact ⟨hcntr2, .inl ⟨⟨rfl, rfl, hclda, hne⟩, rfl⟩⟩
  · have hbits : ∀ i : Byte, setBits (setBits i (isrOvw ||| isrRst)) isrRxe ||| 0x20 = i ||| 0xB4 := by decide
    rw [netRx_of_overflow hacc hmatch hmon hstore, hstore, updateIrq_isr, isrWithCnt_or, hisr, hbits]
    exact ⟨hcntr2, .inr ⟨⟨rfl, rfl, hclda, hcurr⟩, rfl⟩⟩

end

end

end Sys2Proof.Machine
end

section
/-! Proofs of the family 44_receive, the layer of facts: the reflected CRC register is the MSB-first register with its bits
in reverse order (spec/44_receive.md R289). -/

namespace Sys2Proof.Machine

open Sys2Proof.Safety

/-- One bit of the reflected register against one of the MSB-first register. `w` holds the bits of the byte not yet taken:
the reflected form has xored them in all at once, the MSB-first form takes one at a time. -/
theorem crcBit_reverse_xor (r w : BitVec 32) :
    crcBit (r.reverse ^^^ w) = (msbCrcBit r (w.getLsbD 0)).reverse ^^^ (w >>> 1) := by
  have hshift : (r <<< 1).reverse = r.reverse >>> 1 := by
    ext i hi
    simp [BitVec.getElem_reverse, BitVec.getMsbD_shiftLeft, BitVec.getLsbD_reverse, Nat.add_comm]
  have hpoly : (0x04C11DB7 : BitVec 32).reverse = 0xEDB88320 := by decide +kernel
  have hxor : ∀ x y : BitVec 32, (x ^^^ y).reverse = x.reverse ^^^ y.reverse := fun x y => by
    ext i hi
    simp [BitVec.getElem_reverse]
  have hlow : (r.reverse ^^^ w).getLsbD 0 = (r.getLsbD 31 != w.getLsbD 0) := by
    simp only [BitVec.getLsbD_xor, BitVec.getLsbD_reverse]
    rfl
  unfold crcBit msbCrcBit
  rw [hlow, BitVec.ushiftRight_xor_distrib]
  split_ifs
  · rw [hxor, hshift, hpoly]
    ac_rfl
  · rw [hshift]

theorem crcByte_reverse (r : BitVec 32) (b : Byte) : crcByte r.reverse b =
    ((List.range 8).foldl (fun q k => msbCrcBit q (b.getLsbD k)) r).reverse := by
  have htaken : b.setWidth 32 >>> 8 = 0 := by
    ext i hi
    simp [BitVec.getLsbD_of_ge]
  simp [crcByte, crcBit_reverse_xor, ← BitVec.shiftRight_add, List.range_succ, htaken]

theorem rawCrc_eq_reverse_msbCrc (bs : List Byte) : rawCrc bs = (msbCrc bs).reverse := by
  have hinit : BitVec.reverse 0xFFFFFFFF = (0xFFFFFFFF : BitVec 32) := by decide +kernel
  rw [rawCrc, msbCrc, ← List.foldl_hom BitVec.reverse crcByte_reverse, hinit]

theorem bitrev6_eq_reverse : ∀ x : BitVec 6, bitrev6 x = x.reverse := by decide +kernel

end Sys2Proof.Machine
end

section
/-! Proofs of the family 44_receive, the layer of facts: the free part of a sound ring as a run of bytes numbered from the
header on (spec/44_receive.md R300, R304). -/

namespace Sys2Proof.Machine

open Sys2Proof.Safety

/-- The bytes of the ring from page `CURR` forward to page `BNRY`. -/
def freeSpace (s : State) : Nat := 256 * pagesToBoundary s s.curr

section
variable {s : State} (h : RingSound s) {j k n : Nat}
include h

/-! ### The addresses of the free part of the ring -/

/-- The pointers of a sound ring as numbers, and how far it is from `CURR` to `BNRY` without and with a wrap. -/
theorem ringPointers : s.pstart.toNat ≤ s.curr.toNat ∧ s.curr.toNat < s.pstop.toNat ∧
    s.pstart.toNat ≤ s.bnry.toNat ∧ s.bnry.toNat < s.pstop.toNat ∧ s.pstop.toNat < 256 ∧
    (s.curr.toNat < s.bnry.toNat ∧ freeSpace s + s.curr.toNat * 256 = s.bnry.toNat * 256 ∨
      s.bnry.toNat < s.curr.toNat ∧
        freeSpace s + s.curr.toNat * 256 + s.pstart.toNat * 256 = s.pstop.toNat * 256 + s.bnry.toNat * 256) := by
  have h1 : s.pstart.toNat ≤ s.curr.toNat := h.currIn.1
  have h2 : s.curr.toNat < s.pstop.toNat := h.currIn.2
  have h3 : s.pstart.toNat ≤ s.bnry.toNat := h.bnryIn.1
  have h4 : s.bnry.toNat < s.pstop.toNat := h.bnryIn.2
  have hapart : s.curr.toNat ≠ s.bnry.toNat := fun e => h.apart (BitVec.eq_of_toNat_eq e)
  refine ⟨h1, h2, h3, h4, s.pstop.isLt, ?_⟩
  simp only [freeSpace, pagesToBoundary, BitVec.lt_def]
  split_ifs <;> omega

theorem page_le_freeSpace : 256 ≤ freeSpace s := by
  obtain ⟨h1, h2, h3, h4, h5, h6⟩ := ringPointers h
  omega

omit h in
/-- The free part is whole pages: the page of a free byte ends in it. -/
theorem pageEnd_le_freeSpace (hk : k < freeSpace s) : k + (256 - k % 256) ≤ freeSpace s := by
  rw [freeSpace] at hk ⊢
  omega

theorem ringAddr_toNat (hk : k ≤ freeSpace s) : (ringAddr s k).toNat =
    if s.curr.toNat * 256 + k < s.pstop.toNat * 256 then s.curr.toNat * 256 + k
    else s.curr.toNat * 256 + k - s.pstop.toNat * 256 + s.pstart.toNat * 256 := by
  obtain ⟨h1, h2, h3, h4, h5, h6⟩ := ringPointers h
  simp only [ringAddr, apply_ite BitVec.toNat, BitVec.toNat_ofNat]
  split_ifs <;> omega

theorem ringAddr_lo (hk : k ≤ freeSpace s) : (loByte (ringAddr s k)).toNat = k % 256 := by
  rw [loByte_toNat, ringAddr_toNat h hk]
  split_ifs <;> omega

/-- Every free byte is on a page of the ring that the host has released. -/
theorem ringAddr_page (hk : k < freeSpace s) : s.pstart ≤ hiByte (ringAddr s k) ∧ hiByte (ringAddr s k) < s.pstop ∧
    ¬ UnreadPage s (hiByte (ringAddr s k)) := by
  obtain ⟨h1, h2, h3, h4, h5, h6⟩ := ringPointers h
  simp only [UnreadPage, BitVec.le_def, BitVec.lt_def, hiByte_toNat, ringAddr_toNat h hk.le]
  split_ifs <;> omega

/-- The page pointer comes to `BNRY` exactly at the end of the free part. -/
theorem ringAddr_page_eq_bnry_iff (hk : k ≤ freeSpace s) : hiByte (ringAddr s k) = s.bnry ↔ k = freeSpace s := by
  obtain ⟨h1, h2, h3, h4, h5, h6⟩ := ringPointers h
  rw [← BitVec.toNat_inj, hiByte_toNat, ringAddr_toNat h hk]
  split_ifs <;> omega

theorem ringAddr_inj (hj : j < freeSpace s) (hk : k < freeSpace s) (e : ringAddr s j = ringAddr s k) : j = k := by
  obtain ⟨h1, h2, h3, h4, h5, h6⟩ := ringPointers h
  have hnat := congrArg BitVec.toNat e
  rw [ringAddr_toNat h hj.le, ringAddr_toNat h hk.le] at hnat
  split_ifs at hnat <;> omega

theorem ringAddr_decodes (hk : k < freeSpace s) : ∃ o, decodeLocal s.cfg.variant (ringAddr s k) = some o := by
  obtain ⟨h1, h2, -⟩ := ringAddr_page h hk
  exact Option.isSome_iff_exists.1 (h.decodes _ h1 h2)

/-- Two free bytes of the ring are two bytes of local RAM. -/
theorem ringAddr_decode_ne (hj : j < freeSpace s) (hk : k < freeSpace s) (hne : j ≠ k) {o : Nat}
    (ho : decodeLocal s.cfg.variant (ringAddr s k) = some o) : decodeLocal s.cfg.variant (ringAddr s j) ≠ some o := by
  intro hjo
  obtain ⟨hj1, hj2, -⟩ := ringAddr_page h hj
  obtain ⟨hk1, hk2, -⟩ := ringAddr_page h hk
  exact hne (ringAddr_inj h hj hk (h.distinct _ _ hj1 hj2 hk1 hk2 (hjo.trans ho.symm)))

/-- The first page of the free part is the page `CURR`. -/
theorem wordOf_curr {b : Byte} (hb : b.toNat = k) : wordOf s.curr b = ringAddr s k := by
  have hlt := b.isLt
  have hpage := page_le_freeSpace h
  obtain ⟨h1, h2, -⟩ := ringPointers h
  apply BitVec.eq_of_toNat_eq
  rw [ringAddr_toNat h (by omega), wordOf_toNat, hb, if_pos (by omega)]

/-! ### The steps of the writer -/

theorem ringAddr_add_toNat (hk : k + n ≤ freeSpace s) (hn : n ≤ 256 - k % 256) :
    (ringAddr s k + BitVec.ofNat 16 n).toNat = (ringAddr s k).toNat + n := by
  obtain ⟨h1, h2, h3, h4, h5, h6⟩ := ringPointers h
  rw [BitVec.toNat_add, BitVec.toNat_ofNat, ringAddr_toNat h (by omega)]
  split_ifs <;> omega

/-- Inside a page an address is stepped by adding. -/
theorem ringAddr_add (hk : k + n ≤ freeSpace s) (hn : n < 256 - k % 256) :
    ringAddr s k + BitVec.ofNat 16 n = ringAddr s (k + n) := by
  apply BitVec.eq_of_toNat_eq
  rw [ringAddr_add_toNat h hk hn.le, ringAddr_toNat h hk, ringAddr_toNat h (by omega)]
  split_ifs <;> omega

/-- At a page end the sum is the start of a page, for which `PSTART` stands where it would be `PSTOP` (R300). -/
theorem ringAddr_add_wrap (hk : k + n ≤ freeSpace s) (hn : n = 256 - k % 256) :
    loByte (ringAddr s k + BitVec.ofNat 16 n) = 0 ∧
    (if hiByte (ringAddr s k + BitVec.ofNat 16 n) = s.pstop then wordOf s.pstart 0
      else ringAddr s k + BitVec.ofNat 16 n) = ringAddr s (k + n) := by
  obtain ⟨h1, h2, h3, h4, h5, h6⟩ := ringPointers h
  have hsum := ringAddr_add_toNat h hk hn.le
  rw [ringAddr_toNat h (by omega)] at hsum
  have hzero : (0 : Byte).toNat = 0 := rfl
  refine ⟨BitVec.eq_of_toNat_eq ?_, BitVec.eq_of_toNat_eq ?_⟩
  · rw [loByte_toNat, hsum, hzero]
    split_ifs <;> omega
  · rw [apply_ite BitVec.toNat, wordOf_toNat, hzero, ringAddr_toNat h hk]
    simp only [← BitVec.toNat_inj, hiByte_toNat, hsum]
    split_ifs <;> omega

end

/-! ### Bytes stored in the ring -/

/-- Local RAM after bytes are stored one by one from byte `k` of the ring on. -/
def storeRing (s : State) : Memory → Nat → List Byte → Memory
  | m, _, [] => m
  | m, k, b :: bs => storeRing s (localWrite (s.withRam m) (ringAddr s k) b).ram (k + 1) bs

section
variable {s : State} {m : Memory} {k : Nat}

theorem storeRing_cons (b : Byte) (bs : List Byte) :
    storeRing s m k (b :: bs) = storeRing s (localWrite (s.withRam m) (ringAddr s k) b).ram (k + 1) bs := rfl

theorem storeRing_append (bs cs : List Byte) :
    storeRing s m k (bs ++ cs) = storeRing s (storeRing s m k bs) (k + bs.length) cs := by
  induction bs generalizing m k with
  | nil => rfl
  | cons b bs ih =>
    rw [List.cons_append, storeRing_cons, storeRing_cons, ih, List.length_cons, Nat.add_assoc, Nat.add_comm 1]

/-- Two runs of a list, one after the other, are its run. -/
theorem storeRing_take_take (bs : List Byte) (i n : Nat) :
    storeRing s (storeRing s m k (bs.take i)) (k + i) ((bs.drop i).take n) = storeRing s m k (bs.take (i + n)) := by
  rw [List.take_add, storeRing_append]
  rcases le_total i bs.length with hle | hle
  · rw [List.length_take_of_le hle]
  · rw [List.drop_eq_nil_of_le hle, List.take_nil]
    rfl

theorem storeRing_take_drop (bs : List Byte) (i : Nat) :
    storeRing s (storeRing s m k (bs.take i)) (k + i) (bs.drop i) = storeRing s m k bs := by
  have hrun := storeRing_take_take (s := s) (m := m) (k := k) bs i bs.length
  have hrest : (bs.drop i).length ≤ bs.length := List.length_drop.trans_le (Nat.sub_le ..)
  rwa [List.take_of_length_le hrest, List.take_of_length_le (Nat.le_add_left ..)] at hrun

theorem storeRing_wf (hm : Memory.wf m = true) (bs : List Byte) : Memory.wf (storeRing s m k bs) = true := by
  induction bs generalizing m k with
  | nil => exact hm
  | cons b bs ih => exact ih (localWrite_wf (s := s.withRam m) hm _ _)

theorem read_storeRing_other {bs : List Byte} {o : Nat}
    (ho : ∀ j, k ≤ j → j < k + bs.length → decodeLocal s.cfg.variant (ringAddr s j) ≠ some o) :
    Memory.read (storeRing s m k bs) o = Memory.read m o := by
  induction bs generalizing m k with
  | nil => rfl
  | cons b bs ih =>
    rw [List.length_cons] at ho
    rw [storeRing_cons, ih fun j hj hlt => ho j (by omega) (by omega)]
    exact localWrite_read_other (s.withRam m) (ho k le_rfl (by omega))

variable (h : RingSound s)
include h

theorem read_storeRing {bs : List Byte} {i o : Nat} (hm : Memory.wf m = true) (hfits : k + bs.length ≤ freeSpace s)
    (hi : i < bs.length) (ho : decodeLocal s.cfg.variant (ringAddr s (k + i)) = some o) :
    Memory.read (storeRing s m k bs) o = bs[i] := by
  induction bs generalizing m k i with
  | nil => exact absurd hi (Nat.not_lt_zero i)
  | cons b bs ih =>
    rw [List.length_cons] at hfits hi
    rw [storeRing_cons]
    cases i with
    | zero =>
      rw [read_storeRing_other fun j hj hlt =>
        ringAddr_decode_ne h (k := k) (by omega) (by omega) (by omega) (by simpa using ho)]
      exact localWrite_read_same (s := s.withRam m) hm ho
    | succ i =>
      exact ih (localWrite_wf (s := s.withRam m) hm _ _) (by omega) (by omega)
        (by rwa [Nat.add_assoc, Nat.add_comm 1 i])

/-- A run of writes that does not leave its page. -/
theorem localWriteList_eq_storeRing {t : State} {bs : List Byte} (hram : t.ram = m) (hcfg : t.cfg = s.cfg)
    (hfits : k + bs.length ≤ freeSpace s) (hpage : bs.length ≤ 256 - k % 256) :
    (localWriteList t (ringAddr s k) bs).ram = storeRing s m k bs := by
  induction bs generalizing m k t with
  | nil => exact hram
  | cons b bs ih =>
    rw [List.length_cons] at hfits hpage
    have hstep : (localWrite t (ringAddr s k) b).ram = (localWrite (s.withRam m) (ringAddr s k) b).ram :=
      localWriteList_ram_congr (s := s.withRam m) hram hcfg (ringAddr s k) [b]
    cases bs with
    | nil => exact hstep
    | cons c bs =>
      rw [List.length_cons] at hfits hpage ih
      have hnext : ringAddr s k + 1 = ringAddr s (k + 1) := ringAddr_add h (n := 1) (by omega) (by omega)
      rw [localWriteList, storeRing_cons, hnext]
      exact ih hstep (by rw [localWrite_cfg, hcfg]) (by omega) (by omega)

end

end Sys2Proof.Machine
end

section
/-! Proofs of the family 44_receive, the layer of facts: what the ring writer stores in a sound ring, and how far it gets
(spec/44_receive.md R298 to R305). -/

namespace Sys2Proof.Machine

open Sys2Proof.Safety

/-- A state of the ring writer: local RAM `m`, and `CLDA` at byte `k` of the ring. -/
def atRing (s : State) (m : Memory) (k : Nat) : State := { s with ram := m, clda := ringAddr s k }

@[simp] theorem atRing_pstart (s : State) (m : Memory) (k : Nat) : (atRing s m k).pstart = s.pstart := rfl
@[simp] theorem atRing_pstop (s : State) (m : Memory) (k : Nat) : (atRing s m k).pstop = s.pstop := rfl
@[simp] theorem atRing_bnry (s : State) (m : Memory) (k : Nat) : (atRing s m k).bnry = s.bnry := rfl
@[simp] theorem atRing_ram (s : State) (m : Memory) (k : Nat) : (atRing s m k).ram = m := rfl
@[simp] theorem atRing_clda (s : State) (m : Memory) (k : Nat) : (atRing s m k).clda = ringAddr s k := rfl

/-- The writer's state where it declares overflow: `CLDA` at the end of the free part, which is page `BNRY` (R301). -/
def overflowed (s : State) (m : Memory) : State :=
  { atRing s m (freeSpace s) with isr := setBits s.isr (isrOvw ||| isrRst) }

/-- Where the writer gets that stores `n` bytes from byte `k` on: with `last` the final page is rounded up (R299, R300). -/
def ringEnd (k n : Nat) (last : Bool) : Nat :=
  if n = 0 then k else if last then 256 * ((k + n + 255) / 256) else k + n

theorem ringEnd_false (k n : Nat) : ringEnd k n false = k + n := by
  simp only [ringEnd, Bool.false_eq_true, if_false]
  split_ifs <;> omega

section
variable {s : State} (h : RingSound s) {m : Memory} {k fuel : Nat} {src : List Byte} {last : Bool}

theorem ringLoop_nil (fuel : Nat) (t : State) (last : Bool) : ringLoop fuel t [] last = (t, false) := by
  cases fuel <;> rfl

include h

theorem atRing_room (hk : k < freeSpace s) : Config.pageSize - (loByte (atRing s m k).clda).toNat = 256 - k % 256 :=
  congrArg (256 - ·) (ringAddr_lo h hk.le)

/-- A chunk that ends inside its page is the last one. -/
theorem ringLoop_inside (hk : k < freeSpace s) (hne : src ≠ []) (hshort : src.length < 256 - k % 256) :
    ringLoop (fuel + 1) (atRing s m k) src false = (atRing s (storeRing s m k src) (k + src.length), false) := by
  have hend := pageEnd_le_freeSpace hk
  have hfits : k + src.length ≤ freeSpace s := by omega
  have hstored := localWriteList_eq_storeRing h (t := atRing s m k) rfl rfl hfits hshort.le
  have hlo : loByte (ringAddr s (k + src.length)) ≠ 0 := by
    intro e
    have hnat : (k + src.length) % 256 = 0 := (ringAddr_lo h hfits).symm.trans (congrArg BitVec.toNat e)
    have hpos : 0 < src.length := List.length_pos_iff.2 hne
    omega
  rw [ringLoop]
  simp only [List.isEmpty_iff, hne, if_false, atRing_room h hk, List.take_of_length_le hshort.le,
    List.drop_of_length_le hshort.le, Bool.false_and, Bool.false_eq_true]
  rw [localWriteList_eq, atRing_clda, hstored, ringAddr_add h hfits hshort, if_neg hlo, ringLoop_nil]
  rfl

/-- A chunk that ends at its page's end: overflow where the next page is `BNRY`, else the next chunk. -/
theorem ringLoop_pageEnd (hk : k < freeSpace s) (hne : src ≠ []) (hend : last = true ∨ 256 - k % 256 ≤ src.length) :
    ringLoop (fuel + 1) (atRing s m k) src last =
      if k + (256 - k % 256) = freeSpace s then
        (overflowed s (storeRing s m k (src.take (256 - k % 256))), true)
      else ringLoop fuel (atRing s (storeRing s m k (src.take (256 - k % 256))) (k + (256 - k % 256)))
        (src.drop (256 - k % 256)) last := by
  have hfits := pageEnd_le_freeSpace hk
  have hchunk : (src.take (256 - k % 256)).length ≤ 256 - k % 256 := List.length_take_le _ _
  have hstored := localWriteList_eq_storeRing h (t := atRing s m k) rfl rfl (by omega) hchunk
  obtain ⟨hlo, hwrap⟩ := ringAddr_add_wrap h hfits rfl
  have hadv : (if (last && (src.drop (256 - k % 256)).isEmpty) = true then 256 - k % 256
      else (src.take (256 - k % 256)).length) = 256 - k % 256 := by
    simp only [Bool.and_eq_true, List.isEmpty_iff, List.drop_eq_nil_iff, List.length_take]
    split_ifs with hlast
    · rfl
    · have hlong : 256 - k % 256 ≤ src.length := by
        by_contra hshort
        exact hlast ⟨hend.resolve_right hshort, by omega⟩
      omega
  rw [ringLoop]
  simp only [List.isEmpty_iff, hne, if_false, atRing_room h hk]
  rw [hadv, localWriteList_eq, atRing_clda, hstored, if_pos hlo]
  rw [atRing_pstart, atRing_pstop, atRing_bnry, hwrap]
  have hbnry := ringAddr_page_eq_bnry_iff h hfits
  by_cases hfull : k + (256 - k % 256) = freeSpace s
  · rw [if_pos (hbnry.2 hfull), if_pos hfull, hfull]
    rfl
  · rw [if_neg (mt hbnry.1 hfull), if_neg hfull]
    rfl

omit h in
theorem ringEnd_pageEnd {n : Nat} (hpos : 0 < n) (hend : last = true ∨ 256 - k % 256 ≤ n) :
    ringEnd (k + (256 - k % 256)) (n - (256 - k % 256)) last = ringEnd k n last := by
  unfold ringEnd
  cases last
  · simp only [Bool.false_eq_true, false_or, if_false] at hend ⊢
    split_ifs <;> omega
  · simp only [if_true]
    split_ifs <;> omega

/-- The writer in a sound ring: it stores everything and ends inside the free part, or it stores a first part of what it was
given and overflows at the end. -/
theorem ringLoop_atRing (hfuel : src.length ≤ fuel) (hk : k < freeSpace s) :
    (ringEnd k src.length last < freeSpace s ∧
      ringLoop fuel (atRing s m k) src last = (atRing s (storeRing s m k src) (ringEnd k src.length last), false)) ∨
    ∃ n, k + n ≤ freeSpace s ∧ n ≤ src.length ∧
      ringLoop fuel (atRing s m k) src last = (overflowed s (storeRing s m k (src.take n)), true) := by
  induction fuel generalizing m k src with
  | zero =>
    obtain rfl : src = [] := List.length_eq_zero_iff.1 (Nat.le_zero.1 hfuel)
    exact .inl ⟨hk, rfl⟩
  | succ fuel ih =>
    by_cases hne : src = []
    · subst hne
      exact .inl ⟨hk, rfl⟩
    have hpos : 0 < src.length := List.length_pos_iff.2 hne
    by_cases hend : last = true ∨ 256 - k % 256 ≤ src.length
    · rw [ringLoop_pageEnd h hk hne hend]
      split_ifs with hbnry
      · exact .inr ⟨min (256 - k % 256) src.length, by omega, by omega, by rw [← List.take_eq_take_min]⟩
      · have hrest : (src.drop (256 - k % 256)).length = src.length - (256 - k % 256) := List.length_drop
        have hnext : k + (256 - k % 256) < freeSpace s := (pageEnd_le_freeSpace hk).lt_of_ne hbnry
        rcases ih (src := src.drop (256 - k % 256)) (by omega) hnext with ⟨hfits, heq⟩ | ⟨n, hn, hlen, heq⟩
        · rw [hrest, ringEnd_pageEnd hpos hend] at hfits heq
          exact .inl ⟨hfits, by rw [heq, storeRing_take_drop]⟩
        · exact .inr ⟨min (256 - k % 256 + n) src.length, by omega, by omega,
            by rw [heq, storeRing_take_take, ← List.take_eq_take_min]⟩
    · obtain ⟨hlast, hshort⟩ := not_or.1 hend
      obtain rfl : last = false := by simpa using hlast
      have hpage := pageEnd_le_freeSpace hk
      rw [ringEnd_false]
      exact .inl ⟨by omega, ringLoop_inside h hk hne (by omega)⟩

/-- The storing of a frame in a sound ring: the frame and the placeholder, with the end at the start of a page of the free
part, or a first part of them and overflow. -/
theorem storeFrame_sound (g : List Byte) :
    (256 * ((g.length + 8 + 255) / 256) < freeSpace s ∧ storeFrame s g =
      (atRing s (storeRing s s.ram 4 (g ++ fcsPlaceholder)) (256 * ((g.length + 8 + 255) / 256)), false)) ∨
    ∃ bs : List Byte, 4 + bs.length ≤ freeSpace s ∧ storeFrame s g = (overflowed s (storeRing s s.ram 4 bs), true) := by
  have hpage := page_le_freeSpace h
  have hstart : { s with clda := wordOf s.curr 4 } = atRing s s.ram 4 := by rw [wordOf_curr h (k := 4) rfl]; rfl
  have hround : ringEnd (4 + g.length) fcsPlaceholder.length true = 256 * ((g.length + 8 + 255) / 256) := by
    have hsum : 4 + g.length + 4 + 255 = g.length + 8 + 255 := by omega
    rw [← hsum]
    rfl
  unfold storeFrame ringWrite
  rw [hstart]
  rcases ringLoop_atRing h (m := s.ram) (k := 4) (src := g) (last := false) le_rfl (by omega) with
    ⟨hfits, hframe⟩ | ⟨n, hn, hlen, hframe⟩
  · rw [ringEnd_false] at hfits hframe
    rw [hframe]
    rcases ringLoop_atRing h (m := storeRing s s.ram 4 g) (src := fcsPlaceholder) (last := true) le_rfl hfits with
      ⟨hfits', hfcs⟩ | ⟨n, hn, hlen, hfcs⟩
    · rw [hround] at hfits' hfcs
      exact .inl ⟨hfits', by rw [storeRing_append]; exact hfcs⟩
    · refine .inr ⟨g ++ fcsPlaceholder.take n, ?_, by rw [storeRing_append]; exact hfcs⟩
      rw [List.length_append, List.length_take_of_le hlen]
      omega
  · refine .inr ⟨g.take n, ?_, by rw [hframe]; rfl⟩
    rwa [List.length_take_of_le hlen]

/-- The packet header goes to the first four bytes of the free part (R304). -/
theorem writeHeader_ram {u : State} (hcfg : u.cfg = s.cfg) (rsr next : Byte) (count : Word) :
    (writeHeader u s.curr rsr next count).ram =
      storeRing s u.ram 0 [rsr, next, loByte count, hiByte count] := by
  have hpage := page_le_freeSpace h
  rw [writeHeader, wordOf_curr h (k := 0) rfl]
  exact localWriteList_eq_storeRing h rfl hcfg (by simp; omega) (by simp)

/-- An accepted frame in a sound ring: stored with its header, and `CURR` at the page after it; or local RAM has a first part
of it, and `RSR.PRX` is 0. -/
theorem netRx_sound {frame : List Byte} (hacc : accepting s frame = true) (hmatch : matchAddr s (frame.take 6) ≠ .none)
    (hmon : rcrMon s.rcr = false) :
    (256 * (((padFrame frame).length + 8 + 255) / 256) < freeSpace s ∧
      (netRx s frame).curr = hiByte (ringAddr s (256 * (((padFrame frame).length + 8 + 255) / 256))) ∧
      (netRx s frame).ram = storeRing s (storeRing s s.ram 4 (padFrame frame ++ fcsPlaceholder)) 0
        [(netRx s frame).rsr, (netRx s frame).curr, BitVec.ofNat 8 ((padFrame frame).length + 8),
          BitVec.ofNat 8 (((padFrame frame).length + 8) / 256)]) ∨
    ((netRx s frame).rsr.getLsbD 0 = false ∧
      ∃ bs : List Byte, 4 + bs.length ≤ freeSpace s ∧ (netRx s frame).ram = storeRing s s.ram 4 bs) := by
  have hlo : ∀ n, loByte (BitVec.ofNat 16 n) = BitVec.ofNat 8 n := fun n => BitVec.eq_of_toNat_eq <| by
    rw [loByte_toNat, BitVec.toNat_ofNat, BitVec.toNat_ofNat]
    omega
  have hhi : ∀ n, hiByte (BitVec.ofNat 16 n) = BitVec.ofNat 8 (n / 256) := fun n => BitVec.eq_of_toNat_eq <| by
    rw [hiByte_toNat, BitVec.toNat_ofNat, BitVec.toNat_ofNat]
    omega
  rcases storeFrame_sound h (padFrame frame) with ⟨hfits, hstore⟩ | ⟨bs, hfits, hstore⟩
  · obtain ⟨u, hu⟩ : ∃ u, u = atRing s (storeRing s s.ram 4 (padFrame frame ++ fcsPlaceholder))
        (256 * (((padFrame frame).length + 8 + 255) / 256)) := ⟨_, rfl⟩
    have heq := netRx_of_stored hacc hmatch hmon (hu ▸ hstore)
    have hrsr : (netRx s frame).rsr = setBits (phyStatus (matchAddr s (frame.take 6))) rsrPrx := by rw [heq]; rfl
    have hcurr : (netRx s frame).curr = hiByte u.clda := by rw [heq]; rfl
    refine .inl ⟨hfits, by rw [hcurr, hu, atRing_clda], ?_⟩
    rw [hrsr, hcurr, ← hlo, ← hhi, ← atRing_ram s (storeRing s s.ram 4 (padFrame frame ++ fcsPlaceholder)), ← hu,
      ← writeHeader_ram h (by rw [hu]; rfl), heq]
    rfl
  · have heq := netRx_of_overflow hacc hmatch hmon hstore
    have hstatus : ∀ m, (setBits (phyStatus m) rsrMpa).getLsbD 0 = false := fun m => by cases m <;> rfl
    exact .inr ⟨by rw [heq]; exact hstatus _, bs, hfits, by rw [heq]; rfl⟩

/-- A frame writes free bytes of the ring only. -/
theorem netRx_read_other (frame : List Byte) {o : Nat}
    (ho : ∀ j, j < freeSpace s → decodeLocal s.cfg.variant (ringAddr s j) ≠ some o) :
    Memory.read (netRx s frame).ram o = Memory.read s.ram o := by
  by_cases hacc : accepting s frame = true
  case neg => rw [netRx_of_not_accepting hacc]
  by_cases hmatch : matchAddr s (frame.take 6) = .none
  case pos => rw [netRx_of_no_match hmatch]
  cases hmon : rcrMon s.rcr with
  | true =>
    rw [netRx_of_monitor hacc hmatch hmon, countMissed_eq]
    rfl
  | false =>
    rcases netRx_sound h hacc hmatch hmon with ⟨hfits, -, hram⟩ | ⟨-, bs, hfits, hram⟩
    · have hpage := page_le_freeSpace h
      rw [hram, read_storeRing_other, read_storeRing_other]
      · intro j _ hj
        have hlen : (padFrame frame ++ fcsPlaceholder).length = (padFrame frame).length + 4 := List.length_append
        exact ho j (by omega)
      · intro j _ hj
        exact ho j (lt_of_lt_of_le hj (by simp; omega))
    · rw [hram, read_storeRing_other]
      exact fun j _ hj => ho j (by omega)

end

end Sys2Proof.Machine
end

section
/-! Proofs of the family 44_receive: the gate, the filter, monitor mode, the two outcomes, and the hash. -/

namespace Sys2Proof.Proofs

open Sys2Proof.Machine Sys2Proof.Safety

/-- Settles O56: the hash is a slice of the reflected register, in reverse order, and so a slice of the MSB-first one. -/
theorem multicastHashIsTopOfMsbFirstCrc : Obligations.MulticastHashIsTopOfMsbFirstCrc := by
  intro d
  have hraw : crc32 d ^^^ 0xFFFFFFFF = rawCrc d := by rw [crc32, BitVec.xor_assoc, BitVec.xor_self, BitVec.xor_zero]
  rw [mcHash, hraw, rawCrc_eq_reverse_msbCrc, bitrev6_eq_reverse]
  ext i hi
  have hindex : 32 - (6 - i) = 26 + i := by omega
  have hfits : 6 ≤ 32 + i := by omega
  simp [BitVec.getElem_reverse, BitVec.getMsbD_extractLsb', BitVec.getMsbD_reverse, hi, hindex, hfits]

/-- Settles O49. -/
theorem droppedFrameChangesNothing : Obligations.DroppedFrameChangesNothing := fun _ _ =>
  ⟨fun h => netRx_of_not_accepting (mt accepting_iff.1 h), netRx_of_no_match⟩

/-- Settles O50: the status of each match with `MPA`, and the count. -/
theorem monitorModeCountsAndReports : Obligations.MonitorModeCountsAndReports := by
  intro s frame hrun hlink hsta hstp hlen hmatch hmon
  have hmpa : ∀ m, setBits (phyStatus m) rsrMpa = if m = .bcast ∨ m = .mcast then 0x30 else 0x10 := by
    intro m
    cases m <;> rfl
  rw [netRx_of_monitor (accepting_iff.2 ⟨hrun, hlink, hsta, hstp, hlen⟩) hmatch hmon, countMissed_eq, hmpa]
  rfl

/-- Settles O55: each predicate by its rule, then the order of the tests. -/
theorem addressFilterPredicatesAndOrder : Obligations.AddressFilterPredicatesAndOrder := by
  intro s d0 d1 d2 d3 d4 d5 d padr bcast k mcast prom
  have hpadr : isPadr s d = true ↔ padr := isPadr_iff
  have hbcast : isBcast s d = true ↔ bcast := isBcast_iff
  have hmcast : isMcast s d = true ↔ mcast := isMcast_cons_iff
  have hprom : isProm s d = true ↔ prom := isProm_cons_iff
  rw [← hpadr, ← hbcast, ← hmcast, ← hprom]
  unfold matchAddr
  refine ⟨fun h1 => ?_, fun h1 h2 => ?_, fun h1 h2 h3 => ?_, fun h1 h2 h3 h4 => ?_, fun h1 h2 h3 h4 => ?_⟩
  · rw [if_pos h1]
  · rw [if_neg h1, if_pos h2]
  · rw [if_neg h1, if_neg h2, if_pos h3]
  · rw [if_neg h1, if_neg h2, if_neg h3, if_pos h4]
  · rw [if_neg h1, if_neg h2, if_neg h3, if_neg h4]

/-- Settles O52: every outcome writes these fields only. -/
theorem receptionFrame : Obligations.ReceptionFrame := by
  intro s frame
  rcases netRx_cases s frame with h | ⟨m, isr, curr, rsr, clda, cntr2, h⟩
  · rw [h]
  · rw [h]
    rfl

/-- Settles O51: the two outcomes of the ring writer, told apart by `RSR`, and the page count that decides. -/
theorem acceptedFrameIsStoredOrOverflows : Obligations.AcceptedFrameIsStoredOrOverflows := by
  intro s frame hrun hlink hsta hstp hlen hmatch hmon t phy stored overflows
  have hacc : accepting s frame = true := accepting_iff.2 ⟨hrun, hlink, hsta, hstp, hlen⟩
  have hphy : phyStatus (matchAddr s (frame.take 6)) = phy := phyStatus_eq _
  have hapart : ¬ (stored ∧ overflows) := by
    rintro ⟨⟨hs, -⟩, ⟨ho, -⟩⟩
    have hne : ∀ m, phyStatus m ||| 0x01 ≠ phyStatus m ||| 0x10 := fun m => by cases m <;> decide
    exact hne _ (hphy ▸ hs.symm.trans ho)
  have hpages : pagesOfFrame frame.length = ((padFrame frame).length + 8 + 255) / 256 := by
    rw [padFrame_length, pagesOfFrame]
  have hdecides := storeFrame_overflow_iff s (padFrame frame) (padFrame_ne_nil frame)
  rw [← hpages] at hdecides
  obtain ⟨hcntr2, hcase⟩ : t.cntr2 = s.cntr2 ∧ (stored ∧ (storeFrame s (padFrame frame)).2 = false ∨
      overflows ∧ (storeFrame s (padFrame frame)).2 = true) := by
    have hfields := netRx_fields hacc hmatch hmon
    rwa [hphy] at hfields
  refine ⟨hcntr2, hcase.imp And.left And.left, fun h1 h2 h3 h4 => ?_⟩
  rw [← hdecides h1 h2 h3 h4, ← not_le, ← hdecides h1 h2 h3 h4]
  rcases hcase with ⟨h, hfit⟩ | ⟨h, hover⟩
  · exact ⟨iff_of_true h (by simp [hfit]), iff_of_false (fun h' => hapart ⟨h, h'⟩) (by simp [hfit])⟩
  · exact ⟨iff_of_false (fun h' => hapart ⟨h', h⟩) (by simp [hover]), iff_of_true h hover⟩

/-- Settles O53: a frame writes free bytes of the ring only, which lie on no unread page and decode to other bytes. -/
theorem receptionSparesUnreadPagesAndAllOutsideTheRing : Obligations.ReceptionSparesUnreadPagesAndAllOutsideTheRing := by
  intro s frame h
  refine ⟨fun a hunread => ?unread, fun o houtside => ?outside⟩
  case unread =>
    obtain ⟨hfrom, hto, -⟩ := id hunread
    obtain ⟨o, ho⟩ := Option.isSome_iff_exists.1 (h.decodes a hfrom hto)
    rw [localRead_of_decode ho, localRead_of_decode (by rwa [netRx_cfg])]
    refine netRx_read_other h frame fun j hj hjo => ?_
    obtain ⟨hjfrom, hjto, hjfree⟩ := ringAddr_page h hj
    exact hjfree (h.distinct _ _ hjfrom hjto hfrom hto (hjo.trans ho.symm) ▸ hunread)
  case outside =>
    refine netRx_read_other h frame fun j hj => ?_
    obtain ⟨hjfrom, hjto, -⟩ := ringAddr_page h hj
    exact houtside _ hjfrom hjto

/-- Settles O54: the header and the body are two runs of bytes in the free part that do not meet. -/
theorem storedFrameReadsBackWhole : Obligations.StoredFrameReadsBackWhole := by
  intro s frame h hwf hrun hlink hsta hstp hlen hmatch hmon t hprx g n
  have hacc : accepting s frame = true := accepting_iff.2 ⟨hrun, hlink, hsta, hstp, hlen⟩
  rcases netRx_sound h hacc hmatch hmon with ⟨hfits, hcurr, hram⟩ | ⟨hprx', -⟩
  case inr => exact absurd (hprx.symm.trans hprx') (by decide)
  have hpage := page_le_freeSpace h
  have hbody : (g ++ fcsPlaceholder).length + 4 = n := by rw [List.length_append]; rfl
  have hn : n ≤ freeSpace s := by
    have : 256 * ((n + 255) / 256) < freeSpace s := hfits
    omega
  have hread : ∀ k, k < freeSpace s → ∃ o, decodeLocal s.cfg.variant (ringAddr s k) = some o ∧
      localRead t (ringAddr s k) = Memory.read t.ram o := by
    intro k hk
    obtain ⟨o, ho⟩ := ringAddr_decodes h hk
    have hcfg : t.cfg = s.cfg := netRx_cfg s frame
    exact ⟨o, ho, localRead_of_decode (by rwa [hcfg])⟩
  have hheader : ∀ i (hi : i < 4), localRead t (ringAddr s i) =
      [t.rsr, t.curr, BitVec.ofNat 8 n, BitVec.ofNat 8 (n / 256)][i] := by
    intro i hi
    obtain ⟨o, ho, heq⟩ := hread i (by omega)
    rw [heq, hram]
    exact read_storeRing h (storeRing_wf hwf _) (by simp; omega) hi (by rwa [Nat.zero_add])
  refine ⟨hcurr, hheader 0 (by decide), hheader 1 (by decide), hheader 2 (by decide), hheader 3 (by decide), ?_⟩
  intro k hk
  have hk' : k < (g ++ fcsPlaceholder).length := hk
  have hlt : 4 + k < freeSpace s := by omega
  obtain ⟨o, ho, heq⟩ := hread (4 + k) hlt
  rw [heq, hram, read_storeRing_other]
  · exact read_storeRing h (bs := g ++ fcsPlaceholder) hwf (by omega) hk' ho
  · intro j _ hj
    have hj' : j < 4 := by simpa using hj
    exact ringAddr_decode_ne h (k := 4 + k) (by omega) (by omega) (by omega) ho

end Sys2Proof.Proofs
end

section
/-! Proofs of the family 45_transmit, the layer of facts: the end of a run of the transmit engine on each of its paths
(spec/45_transmit.md R320 to R330), and what a loopback leaves (R332 to R341). -/

namespace Sys2Proof.Machine

theorem setTxp_false_mask : ∀ c : Byte, setTxp c false = c &&& 0xFB := by decide +kernel

/-- A raised cause is seen after the pass, away from `CNT` (R385, R386). -/
theorem updateIrq_isr_of_raised {u : State} {i cause : Byte} (h : u.isr = setBits i cause) :
    (updateIrq u).isr ||| 0x20 = i ||| (cause ||| 0x20) := by
  rw [updateIrq_isr, isrWithCnt_or, h, setBits, BitVec.or_assoc]

section
variable {s : State}

/-! ### The end of a run, by its path -/

/-- Whatever the path, `TXP` is cleared after it and the pass runs (R320, R330). -/
theorem txEngine_of_path {u : State} (hpath : transmitPath s = u) (hcr : u.cr = s.cr) :
    txEngine s = updateIrq { u with cr := s.cr &&& 0xFB } := by
  simp only [txEngine, hpath, hcr, setTxp_false_mask, State.withCr]

/-- A giant is rejected before the path is chosen (R322). -/
theorem txEngine_of_giant (hgiant : 1536 < s.tbcr.toNat) : txEngine s = updateIrq { s with
    cr := s.cr &&& 0xFB, tsr := tsrOwc, isr := setBits s.isr isrTxe } :=
  txEngine_of_path (if_pos hgiant) rfl

section
variable (hsize : s.tbcr.toNat ≤ 1536)
include hsize

theorem transmitPath_of_loopback (hlb : tcrLb s.tcr ≠ 0) : transmitPath s = loopbackTransmit s :=
  (if_neg (Nat.not_lt.2 hsize)).trans (if_pos hlb)

/-- A loopback reports success, and its stream goes through the FIFO (R332, R336, R339 to R341). -/
theorem txEngine_of_loopback (hlb : tcrLb s.tcr ≠ 0) :
    txEngine s = updateIrq { s with
      cr := s.cr &&& 0xFB
      rsr := loopbackStatus s (loopbackBytes s)
      tsr := setBits tsrPtx (lbStatus (tcrLb s.tcr))
      isr := setBits s.isr isrPtx
      loopOut := ⟨loopbackBytes s, loopbackStream s (loopbackBytes s)⟩ :: s.loopOut
      fifo := (loopbackTransmit s).fifo
      fifoWp := s.fifoWp + BitVec.ofNat 4 (loopbackStream s (loopbackBytes s)).length } :=
  txEngine_of_path ((transmitPath_of_loopback hsize hlb).trans (loopbackTransmit_eq s)) rfl

variable (hlb : tcrLb s.tcr = 0)
include hlb

theorem transmitPath_of_network : transmitPath s = networkTransmit s :=
  (if_neg (Nat.not_lt.2 hsize)).trans (if_neg (not_not.2 hlb))

/-- With the link down a collision is reported (R326). -/
theorem txEngine_of_linkDown (hlink : s.linkUp = false) : txEngine s = updateIrq { s with
    cr := s.cr &&& 0xFB, tsr := tsrCol, isr := setBits s.isr isrTxe } := by
  rcases networkTransmit_cases s with ⟨-, h⟩ | ⟨hup, -⟩
  · exact txEngine_of_path ((transmitPath_of_network hsize hlb).trans h) rfl
  · exact absurd (hlink.symm.trans hup) (by decide)

/-- With the link up the answer of the network is reported (R327 to R329). -/
theorem txEngine_of_answer (hlink : s.linkUp = true) {frame : List Byte} {answers : List NetTxResult} {count : Nat}
    {r : NetTxResult} (hcall : netTxCall s (localReadList s (wordOf s.tpsr 0) s.tbcr.toNat) =
      ({ s with netTx := frame :: s.netTx, netAnswers := answers, freeCount := count }, r)) :
    txEngine s = updateIrq { s with
      cr := s.cr &&& 0xFB
      tsr := if r = .success then tsrPtx else tsrCol
      isr := setBits s.isr (if r = .success then isrPtx else isrTxe)
      netTx := frame :: s.netTx, netAnswers := answers, freeCount := count } := by
  rcases networkTransmit_cases s with ⟨hdown, -⟩ | ⟨-, u, r', hcall', h⟩
  · exact absurd (hdown.symm.trans hlink) (by decide)
  · obtain ⟨rfl, rfl⟩ := Prod.mk.inj (hcall.symm.trans hcall')
    exact txEngine_of_path ((transmitPath_of_network hsize hlb).trans h) rfl

end

/-! ### The call of the network -/

/-- Where an answer waits, the call takes the oldest (log 6). -/
theorem netTxCall_of_waiting {r : NetTxResult} {rest : List NetTxResult} (h : s.netAnswers = r :: rest)
    (frame : List Byte) :
    netTxCall s frame = ({ s with netTx := frame :: s.netTx, netAnswers := rest }, r) := by
  simp only [netTxCall, h]

/-- Whether an answer waits or not, the call reaches these fields only and hands the frame over once (R327). -/
theorem netTxCall_hands_over (s : State) (frame : List Byte) : ∃ answers count r, netTxCall s frame =
    ({ s with netTx := frame :: s.netTx, netAnswers := answers, freeCount := count }, r) := by
  rcases netTxCall_cases s frame with ⟨r, rest, -, h⟩ | ⟨-, h⟩
  · exact ⟨_, _, _, h⟩
  · exact ⟨_, _, _, h⟩

/-! ### What a loopback leaves -/

theorem loopbackBytes_length (s : State) : (loopbackBytes s).length = loopbackLength s := by simp [loopbackBytes]

/-- Counted back from the write index after the load, the FIFO holds the last bytes of the stream (R341). -/
theorem loopbackTransmit_fifo_last (s : State) {j : Nat} (hj : j < 16)
    (hreached : j < (loopbackStream s (loopbackBytes s)).length) :
    fifoGet (loopbackTransmit s).fifo
        (s.fifoWp + BitVec.ofNat 4 (loopbackStream s (loopbackBytes s)).length - 1 - BitVec.ofNat 4 j) =
      (loopbackStream s (loopbackBytes s)).getD ((loopbackStream s (loopbackBytes s)).length - 1 - j) 0 := by
  have hwp : (loopbackTransmit s).fifoWp =
      s.fifoWp + BitVec.ofNat 4 (loopbackStream s (loopbackBytes s)).length := by rw [loopbackTransmit_eq]
  rw [← hwp]
  exact fifoLoad_get _ _ j hj hreached

/-- A cell of the FIFO that the stream does not reach keeps its byte (R341). -/
theorem loopbackTransmit_fifo_unreached (s : State) {k : Nibble}
    (hk : (loopbackStream s (loopbackBytes s)).length ≤ (k - s.fifoWp).toNat) :
    fifoGet (loopbackTransmit s).fifo k = fifoGet s.fifo k :=
  fifoLoad_get_unreached _ _ k hk

/-- `TSR` by loopback mode (R339). -/
theorem loopbackTsr_eq : ∀ lb : BitVec 2, lb ≠ 0 → setBits tsrPtx (lbStatus lb) =
    if lb = 1#2 then 0x51 else if lb = 2#2 then 0x41 else 0x01 := by decide

/-- With the CRC inhibited `RSR` is the result of the CRC check (R336, R338). -/
theorem loopbackStatus_of_inhibited (hcrc : tcrCrc s.tcr = true) (bs : List Byte) :
    loopbackStatus s bs = loopbackChecked bs := if_pos hcrc

/-- With the CRC appended `RSR` is the result of the filter (R336, R337). -/
theorem loopbackStatus_of_appended (hcrc : tcrCrc s.tcr = false) (bs : List Byte) :
    loopbackStatus s bs = loopbackFiltered s bs := if_neg (ne_true_of_eq_false hcrc)

/-- The filter's result, with a short stream as one that matches nothing (R337). -/
theorem loopbackFiltered_eq (s : State) (bs : List Byte) : loopbackFiltered s bs =
    if bs.length < 6 ∨ matchAddr s (bs.take 6) = .none then 0x00
    else if matchAddr s (bs.take 6) = .bcast ∨ matchAddr s (bs.take 6) = .mcast then 0x21 else 0x01 := by
  by_cases hlen : 6 ≤ bs.length
  · have hlong : ¬ bs.length < 6 := Nat.not_lt.2 hlen
    rw [loopbackFiltered, if_pos hlen]
    cases matchAddr s (bs.take 6) <;> simp [hlong] <;> rfl
  · rw [loopbackFiltered, if_neg hlen, if_pos (.inl (Nat.lt_of_not_le hlen))]

end

end Sys2Proof.Machine
end

section
/-! Proofs of the family 45_transmit: the statements. -/

namespace Sys2Proof.Proofs

open Sys2Proof.Machine

/-- Settles O58: one path for each clause. -/
theorem networkPathReportsGiantsLinkAndAnswer : Obligations.NetworkPathReportsGiantsLinkAndAnswer := by
  intro s
  refine ⟨txEngine_of_giant, txEngine_of_linkDown, ?_⟩
  intro hsize hlb hlink frame r rest hwaiting
  have hrun := txEngine_of_answer hsize hlb hlink (netTxCall_of_waiting hwaiting _)
  rw [apply_ite (setBits s.isr)] at hrun
  exact hrun

/-- Settles O60: a giant, the link down, and an answer, each with its own `TSR` and cause. -/
theorem networkTransmissionFrame : Obligations.NetworkTransmissionFrame := by
  intro s hlb t frame
  rcases Nat.lt_or_ge 1536 s.tbcr.toNat with hgiant | hsize
  · have ht : t = _ := txEngine_of_giant hgiant
    have hlarge : ¬ s.tbcr.toNat ≤ 1536 := Nat.not_le.2 hgiant
    rw [ht]
    exact ⟨rfl, fun h => absurd h hlarge, fun h => absurd h hlarge, fun _ => ⟨rfl, rfl, rfl, rfl⟩,
      .inr ⟨.inr rfl, updateIrq_isr_of_raised (cause := isrTxe) rfl⟩⟩
  have hgiant : ¬ 1536 < s.tbcr.toNat := Nat.not_lt.2 hsize
  by_cases hlink : s.linkUp = true
  · obtain ⟨answers, count, r, hcall⟩ := netTxCall_hands_over s frame
    have ht : t = _ := txEngine_of_answer hsize hlb hlink hcall
    have hreport : (t.tsr = 0x01 ∧ t.isr ||| 0x20 = s.isr ||| 0x22) ∨
        (t.tsr = 0x04 ∧ t.isr ||| 0x20 = s.isr ||| 0x28) := by
      rw [ht]
      by_cases hr : r = .success
      · exact .inl ⟨if_pos hr, updateIrq_isr_of_raised (cause := isrPtx) (congrArg (setBits s.isr) (if_pos hr))⟩
      · exact .inr ⟨if_neg hr, updateIrq_isr_of_raised (cause := isrTxe) (congrArg (setBits s.isr) (if_neg hr))⟩
    refine ⟨by rw [ht]; rfl, fun _ _ => ⟨by rw [ht]; rfl, hreport.imp And.left And.left⟩,
      fun _ hdown => absurd (hlink.symm.trans hdown) (by decide), fun h => absurd h hgiant, ?_⟩
    exact hreport.imp_right (And.imp_left .inl)
  · have ht : t = _ := txEngine_of_linkDown hsize hlb (eq_false_of_ne_true hlink)
    rw [ht]
    exact ⟨rfl, fun _ hup => absurd hup hlink, fun _ _ => ⟨rfl, rfl, rfl, rfl⟩, fun h => absurd h hgiant,
      .inr ⟨.inl rfl, updateIrq_isr_of_raised (cause := isrTxe) rfl⟩⟩

/-- Settles O59: the fields of a loopback, each by its rule. -/
theorem loopbackTransmitsSelectedBytesIntoFifo : Obligations.LoopbackTransmitsSelectedBytesIntoFifo := by
  intro s hsize hlb word n sent fcs stream t
  have ht : t = _ := txEngine_of_loopback hsize hlb
  have hlen : sent.length = n := loopbackBytes_length s
  have hrsr : t.rsr = loopbackStatus s sent := by rw [ht]; rfl
  refine ⟨?frame, ?tsr, ?isr, fun j hj hreached => ?reached, fun k hk => ?unreached, fun hcrc => ?checked,
    fun hcrc => ?filtered⟩
  case frame =>
    rw [ht]
    rfl
  case tsr =>
    rw [ht]
    exact loopbackTsr_eq _ hlb
  case isr =>
    rw [ht]
    exact updateIrq_isr_of_raised (cause := isrPtx) rfl
  case reached =>
    show fifoGet t.fifo (t.fifoWp - 1 - BitVec.ofNat 4 j) = _
    rw [ht]
    exact loopbackTransmit_fifo_last s hj hreached
  case unreached =>
    show fifoGet t.fifo k = fifoGet s.fifo k
    rw [ht]
    exact loopbackTransmit_fifo_unreached s hk
  case checked =>
    rw [hrsr, loopbackStatus_of_inhibited hcrc, loopbackChecked, hlen]
    rfl
  case filtered =>
    rw [hrsr, loopbackStatus_of_appended hcrc, loopbackFiltered_eq, hlen]

end Sys2Proof.Proofs
end

section
/-! Proofs of the family 60_exceptions, the layer of facts: the aggregation pass in the terms of spec/60_exceptions.md R385,
R386 and R392, the outcomes of a data-port access (R380), and what each operation does to `ISR.RST` (R382). -/

namespace Sys2Proof.Machine

/-! ### The aggregation pass -/

section
variable (s : State)

/-- `CNT` cleared, then set where the three counters ask for it, is `CNT` assigned (R386). -/
theorem isrWithCnt_assign : isrWithCnt s = (s.isr &&& 0xDF) ||| (if cntBit s then 0x20 else 0x00) := by
  have hset : ∀ i : Byte, setBits i isrCnt = (i &&& 0xDF) ||| 0x20 := by decide
  have hclear : ∀ i : Byte, clearBits i isrCnt = (i &&& 0xDF) ||| 0x00 := by decide
  unfold isrWithCnt
  cases cntBit s with
  | true => exact hset s.isr
  | false => exact hclear s.isr

theorem coreRequest_eq (isr imr : Byte) : coreRequest isr imr = decide (isr &&& imr ≠ 0) := by
  rw [Bool.eq_iff_iff, coreRequest, bne_iff_ne, decide_eq_true_iff]

/-- The Gate Array has its part in the level on the 3C503 alone (R392). -/
theorem irqLevelFor_eq (isr : Byte) : irqLevelFor s isr =
    if s.cfg.variant = .el3c503 then (decide (isr &&& s.imr ≠ 0) && !s.gaNim) || (s.gaDtc && !s.gaTcm)
    else decide (isr &&& s.imr ≠ 0) := by
  rw [← coreRequest_eq]
  cases hv : s.cfg.variant <;> simp [irqLevelFor, hv]

/-- The pass assigns `ISR` and the level, and calls `setLevel` where the level is another (R385). -/
theorem updateIrq_eq : updateIrq s = { s with
    isr := isrWithCnt s, irqLevel := irqLevelFor s (isrWithCnt s)
    irqCalls := if irqLevelFor s (isrWithCnt s) ≠ s.irqLevel
      then ⟨s.cfg.irqNum, irqLevelFor s (isrWithCnt s)⟩ :: s.irqCalls else s.irqCalls } := by
  rw [ite_not]
  rfl

/-- The pass has no part in `RST`. -/
theorem updateIrq_rst : (updateIrq s).isr.getLsbD 7 = s.isr.getLsbD 7 := isrWithCnt_other s 7 (by decide)

end

/-! ### The outcomes of a data-port access -/

/-- The shape of all four accesses (R252, R253, R259): what their three outcomes have in common. -/
theorem gated_of_branches {P : Host.Outcome State Fault Refusal → Prop} {enabled : Bool} {unit width : Nat}
    {transferred kept : State} (ht : P (.next transferred)) (hr : P (.refused .dataPortWidth)) (hk : P (.next kept)) :
    P (if enabled then if unit = width then .next transferred else .refused .dataPortWidth else .next kept) := by
  cases enabled with
  | false => exact hk
  | true =>
    by_cases h : unit = width
    · exact (if_pos h).symm ▸ ht
    · exact (if_neg h).symm ▸ hr

/-- A next state, or the refusal of a width: neither a fault nor another refusal (R380, R253). -/
def CompletesOrWrongWidth (o : Host.Outcome State Fault Refusal) : Prop :=
  (∃ t, o = .next t) ∨ o = .refused .dataPortWidth

theorem gated_completesOrWrongWidth {enabled : Bool} {unit width : Nat} {transferred kept : State} :
    CompletesOrWrongWidth
      (if enabled then if unit = width then .next transferred else .refused .dataPortWidth else .next kept) :=
  gated_of_branches (.inl ⟨transferred, rfl⟩) (.inr rfl) (.inl ⟨kept, rfl⟩)

/-! ### `ISR.RST` under each shared operation -/

/-- `ISR.RST` is 1 (R382). -/
def ShowsReset (s : State) : Prop := s.isr.getLsbD 7 = true

section
variable {s : State}

/-- Raised causes and the pass after them leave a shown `RST`, whatever else was written. -/
theorem ShowsReset.updateIrq_of_raised (h : ShowsReset s) {u : State} {cause : Byte}
    (hu : u.isr = setBits s.isr cause) : ShowsReset (updateIrq u) := by
  rw [ShowsReset, updateIrq_rst, hu]
  exact setBits_keeps h cause

theorem ShowsReset.pass (h : ShowsReset s) : ShowsReset (updateIrq s) := (updateIrq_rst s).trans h

/-- A soft reset sets `RST` (R411). -/
theorem softReset_showsReset (s : State) : ShowsReset (softReset s) := (updateIrq_rst _).trans (setBits_isrRst s.isr)

theorem hardReset_showsReset (s : State) : ShowsReset (hardReset s) := softReset_showsReset _

/-- The acknowledge cannot clear `RST` (R142). -/
theorem acknowledgeIsr_showsReset (h : ShowsReset s) (d : Byte) : ShowsReset (acknowledgeIsr s d) := by
  rw [ShowsReset, acknowledgeIsr_bit s d (by decide) (by decide), h]
  simp

theorem transmitTrigger_showsReset (h : ShowsReset s) (txp : Bool) : ShowsReset (transmitTrigger s txp) := by
  rcases transmitTrigger_cases s txp with ⟨he, -⟩ | ⟨he, -⟩
  · rw [he]
    exact h
  · obtain ⟨tsr, rsr, cause, fifo, wp, loopOut, netTx, answers, count, hrun, -, -⟩ :=
      txEngine_cases (s.withCr (setTxp s.cr true))
    rw [he, hrun]
    exact h.updateIrq_of_raised rfl

theorem remoteCommand_showsReset (h : ShowsReset s) (rd : BitVec 3) : ShowsReset (remoteCommand s rd) := by
  rw [remoteCommand_eq]
  exact h

theorem localWrite_showsReset (h : ShowsReset s) (a : Word) (b : Byte) : ShowsReset (localWrite s a b) :=
  (congrArg (BitVec.getLsbD · 7) (localWrite_isr s a b)).trans h

theorem localWrite16_showsReset (h : ShowsReset s) (a v : Word) : ShowsReset (localWrite16 s a v) :=
  localWrite_showsReset (localWrite_showsReset h a (loByte v)) (a + 1) (hiByte v)

theorem dmaStep_showsReset (h : ShowsReset s) : ShowsReset (dmaStep s) := by
  rcases dmaStep_cases s with ⟨-, he⟩ | ⟨-, he⟩ <;> rw [he]
  · exact h
  · exact h.updateIrq_of_raised rfl

theorem countMissed_showsReset (h : ShowsReset s) : ShowsReset (countMissed s) := by
  obtain ⟨n, hn⟩ := countMissed_cases s
  rw [hn]
  exact h

/-- The ring writer leaves `ISR` alone, or overflows, which sets `RST` (R301). -/
theorem storeFrame_showsReset (h : ShowsReset s) (g : List Byte) : ShowsReset (storeFrame s g).1 := by
  rcases storeFrame_fields s g with ⟨u, he, hisr, -⟩ | ⟨u, he, hisr, -⟩ <;> rw [he, ShowsReset, hisr]
  · exact h
  · exact setBits_keeps h _

theorem finishReceive_showsReset (h : ShowsReset s) (start rsr : Byte) (len : Nat) :
    ShowsReset (finishReceive s start rsr len) := by
  cases hi : rsrIntact rsr with
  | true => rw [finishReceive_intact s start rsr len hi]; exact h.updateIrq_of_raised rfl
  | false => rw [finishReceive_error s start rsr len hi]; exact h.updateIrq_of_raised rfl

theorem netRx_showsReset (h : ShowsReset s) (frame : List Byte) : ShowsReset (netRx s frame) := by
  unfold netRx
  split
  case isFalse => exact h
  case isTrue =>
    simp only []
    split_ifs with hnone hmon
    · exact h
    · exact finishReceive_showsReset (countMissed_showsReset h) _ _ _
    all_goals exact finishReceive_showsReset (storeFrame_showsReset h _) _ _ _

theorem promRead_showsReset (h : ShowsReset s) (wide : Bool) (a : Nibble) : ShowsReset (promRead s wide a) := by
  obtain ⟨n, r, he⟩ := promRead_eq s wide a
  exact he ▸ h

/-! ### `ISR.RST` under events and instructions -/

/-- No event clears `RST`. -/
theorem applyEvent_showsReset (h : ShowsReset s) (e : Event) : ShowsReset (applyEvent e s) := by
  cases e with
  | netRx frame => exact netRx_showsReset h frame
  | hardReset => exact hardReset_showsReset s
  | linkUp b => exact h
  | run b => exact h
  | netAnswer r => exact h
  | gateArray nim tcm dtc =>
    rw [applyEvent_gateArray]
    split
    · exact ShowsReset.pass (s := { s with gaNim := nim, gaTcm := tcm, gaDtc := dtc }) h
    · exact h
  | promMap ealo eahi => rw [applyEvent_promMap]; split <;> exact h
  | memEnable b => rw [applyEvent_memEnable]; split <;> exact h
  | shmemRead addr =>
    cases ho : sharedOffset s addr with
    | none => rw [(applyEvent_shmem_of_none ho 0).1]; exact h
    | some o => rw [(applyEvent_shmem_of_some ho 0).1]; exact h
  | shmemWrite addr b =>
    cases ho : sharedOffset s addr with
    | none => rw [(applyEvent_shmem_of_none ho b).2]; exact h
    | some o => rw [(applyEvent_shmem_of_some ho b).2]; exact h

end

/-- The outcome, where it is a next state, shows `RST`. -/
def AnswersReset (o : Host.Outcome State Fault Refusal) : Prop := ∀ t, o = .next t → ShowsReset t

@[simp] theorem answersReset_next {u : State} : AnswersReset (.next u) ↔ ShowsReset u := by simp [AnswersReset]

@[simp] theorem answersReset_refused {r : Refusal} : AnswersReset (.refused r) := by simp [AnswersReset]

/-- The instructions with a phase 1: a `CR` write, and its commands `CR.STP` and `CR.STA` (R233). -/
def StoresStartStop : Instr → Prop
  | .wrCr _ | .crStp _ | .crSta _ => True
  | _ => False

section
variable {s : State}

/-- The four data-port accesses, by what a transfer and an access without one leave. -/
theorem gated_answersReset {enabled : Bool} {unit width : Nat} {transferred kept : State} (ht : ShowsReset transferred)
    (hk : ShowsReset kept) : AnswersReset
      (if enabled then if unit = width then .next transferred else .refused .dataPortWidth else .next kept) :=
  gated_of_branches (answersReset_next.2 ht) answersReset_refused (answersReset_next.2 hk)

/-- No instruction without a phase 1 clears `RST`. A case that is not named does not write `ISR`. -/
theorem exec_answersReset (h : ShowsReset s) {i : Instr} (hi : ¬ StoresStartStop i) : AnswersReset (exec i s) := by
  cases i
  case wrCr d => exact absurd trivial hi
  case crStp b => exact absurd trivial hi
  case crSta b => exact absurd trivial hi
  case crTxp => exact answersReset_next.2 (transmitTrigger_showsReset h true)
  case crRdInvalid => exact answersReset_next.2 (remoteCommand_showsReset h 0)
  case crRdRead => exact answersReset_next.2 (remoteCommand_showsReset h 1)
  case crRdWrite => exact answersReset_next.2 (remoteCommand_showsReset h 2)
  case crRdSend => exact answersReset_next.2 (remoteCommand_showsReset h 3)
  case crRdAbort rd => exact answersReset_next.2 (remoteCommand_showsReset h rd)
  case p0rCntr0 => exact answersReset_next.2 (ShowsReset.pass (s := { s with cntr0 := 0 }) h)
  case p0rCntr1 => exact answersReset_next.2 (ShowsReset.pass (s := { s with cntr1 := 0 }) h)
  case p0rCntr2 => exact answersReset_next.2 (ShowsReset.pass (s := { s with cntr2 := 0 }) h)
  case p0wIsr d => exact answersReset_next.2 (acknowledgeIsr_showsReset h d)
  case p0wImr d => exact answersReset_next.2 (ShowsReset.pass (s := { s with imr := d &&& imrMask }) h)
  case dataRd8 => exact gated_answersReset (dmaStep_showsReset h) h
  case dataRd16 => exact gated_answersReset (dmaStep_showsReset h) h
  case dataWr8 v => exact gated_answersReset (dmaStep_showsReset (localWrite_showsReset h _ v)) h
  case dataWr16 v => exact gated_answersReset (dmaStep_showsReset (localWrite16_showsReset h _ v)) h
  case resetRd => exact answersReset_next.2 (softReset_showsReset s)
  case resetWr v => exact answersReset_next.2 (softReset_showsReset s)
  all_goals exact answersReset_next.2 h

/-- Phase 1 clears `RST` by a start alone, of a core that was stopped or not started (R233). -/
theorem startStop_clears_reset (h : ShowsReset s) {stp sta : Bool} (hc : ¬ ShowsReset (startStop s stp sta)) :
    stp = false ∧ sta = true ∧ (crStp s.cr = true ∨ crSta s.cr = false) := by
  by_contra hstart
  refine hc ?_
  rw [ShowsReset, startStop, rstAfterStartStop_mask, if_neg hstart]
  split
  · exact setBits_isrRst s.isr
  · exact h

/-- The later phases of a `CR` write do not clear `RST`. -/
theorem exec_wrCr_showsReset {d : Byte} (h : ShowsReset (startStop s (crStp d) (crSta d))) {t : State}
    (hx : exec (.wrCr d) s = .next t) : ShowsReset t := by
  rw [exec_wrCr] at hx
  obtain rfl := Host.Outcome.next.inj hx
  exact remoteCommand_showsReset (transmitTrigger_showsReset h _) _

end

end Sys2Proof.Machine
end

section
/-! Proofs of the family 60_exceptions: the statements. -/

namespace Sys2Proof.Proofs

open Sys2Proof.Machine

/-- Settles O40: `ISR` and the level, each by its rule. -/
theorem aggregationPassAssignsCntAndDrivesLine : Obligations.AggregationPassAssignsCntAndDrivesLine := by
  intro s
  rw [updateIrq_eq, irqLevelFor_eq, isrWithCnt_assign]
  rfl

/-- Settles O39: of all instructions only a data-port access tests anything before it completes. -/
theorem onlyWrongWidthStopsAnInstruction : Obligations.OnlyWrongWidthStopsAnInstruction := by
  intro i s
  cases i
  case dataRd8 => exact gated_completesOrWrongWidth.imp_right fun h => ⟨h, .inl rfl⟩
  case dataRd16 => exact gated_completesOrWrongWidth.imp_right fun h => ⟨h, .inr (.inl rfl)⟩
  case dataWr8 v => exact gated_completesOrWrongWidth.imp_right fun h => ⟨h, .inr (.inr (.inl ⟨v, rfl⟩))⟩
  case dataWr16 v => exact gated_completesOrWrongWidth.imp_right fun h => ⟨h, .inr (.inr (.inr ⟨v, rfl⟩))⟩
  all_goals exact .inl ⟨_, rfl⟩

/-- Settles O45: of the things that a step can be, only a `CR` write has a phase 1, and only a start in it clears `RST`. -/
theorem onlyStartClearsResetFlag : Obligations.OnlyStartClearsResetFlag := by
  intro s t h hset hclear
  have hs : ShowsReset s.advance := hset
  have ht : ¬ ShowsReset t := ne_true_of_eq_false hclear
  rcases step_cases h with ⟨-, rfl⟩ | ⟨i, hf, hx⟩ | ⟨e, -, rfl⟩ | ⟨wide, a, -, rfl⟩ | ⟨-, rfl⟩ | ⟨w, port, v, -, rfl⟩
  · exact absurd hset ht
  · by_cases hi : StoresStartStop i
    · cases i
      case wrCr d => exact ⟨d, hf, startStop_clears_reset hs (mt (exec_wrCr_showsReset · hx) ht)⟩
      case crStp b => exact absurd rfl (fetch_instr_fmt hf)
      case crSta b => exact absurd rfl (fetch_instr_fmt hf)
      all_goals exact hi.elim
    · exact absurd (exec_answersReset hs hi t hx) ht
  · exact absurd (applyEvent_showsReset hs e) ht
  · exact absurd (promRead_showsReset hs wide a) ht
  · exact absurd hs ht
  · exact absurd hs ht

end Sys2Proof.Proofs
end
